-- ==== Sys2Proof/Word.lean ====
section
/-! DEFINITION. Word.lean: the widths of the block's data (spec/00_scope.md R8, R9, R11). -/

namespace Sys2Proof

/-- A byte of the serial link, of a slider value or of `controlBits` (R11: 8 bits). -/
abbrev Byte := BitVec 8

/-- A `u16`: a touch coordinate, a widget coordinate or width, `settleCount`, `tickAcc` (R8 COORD_W and
SETTLE_W, R9 TICKACC_W). -/
abbrev U16 := BitVec 16

/-- A 10-bit ADC reading (R8 ADC_W). -/
abbrev Adc := BitVec 10

/-- A battery percentage: 16 bits, read as two's complement (R9 BATT_W, R31). -/
abbrev Percent := BitVec 16

/-- The 48-bit operation word (R80, R9 OPWORD_W). -/
abbrev OpWord := BitVec 48

/-- The 4-bit operation code, bits [47:44] of an operation word (R80). -/
abbrev OpCode := BitVec 4

end Sys2Proof
end

