-- ==== Sys2Proof/Config.lean ====
section
/-! DEFINITION. Config.lean: the constants of tables R8 and R9 (spec/00_scope.md), the OPEN parameters GEOM and
SLIDER_BAND_H as plain data, and the two geometries that spec/95_test_vectors.md section 0 writes out. -/

namespace Sys2Proof

/-- DEBOUNCE_N: the settle count at which TapDown fires (R8). -/
abbrev Config.debounceN : Nat := 3
/-- TICK_DIV: the tick budget of one frame period (R8). -/
abbrev Config.tickDiv : Nat := 781
/-- FRAME_LEN: bytes in a telemetry frame (R8). -/
abbrev Config.frameLen : Nat := 7
/-- JOY_SHIFT: the right shift of a joystick reading (R8). -/
abbrev Config.joyShift : Nat := 2
/-- BATT_OFFSET of the local battery conversion (R8). -/
abbrev Config.battOffset : Int := 500
/-- BATT_MUL of the local battery conversion (R8). -/
abbrev Config.battMul : Int := 2
/-- BATT_DIV of the local battery conversion (R8). -/
abbrev Config.battDiv : Int := 3
/-- SLIDER_MARGIN: pixels of a slider's width reserved for the thumb, half at each end (R8, R137). -/
abbrev Config.sliderMargin : Nat := 16
/-- SLIDER_MAX: the greatest slider value (R8). The least, SLIDER_MIN, is 0. -/
abbrev Config.sliderMax : Nat := 100
/-- BTN_H: the height of a button's hit box (R8). -/
abbrev Config.btnH : Nat := 28
/-- NB: the number of Button records (R9). -/
abbrev Config.nb : Nat := 13
/-- NS: the number of Slider records (R9). -/
abbrev Config.ns : Nat := 2
/-- ACTIVE_PAGE: the one active page (R9, R24). -/
abbrev Config.activePage : Nat := 0
/-- CMD_CHAR: byte 0 of every periodic frame, the letter c (R9, R96). -/
abbrev Config.cmdChar : Byte := 0x63#8
/-- The command byte of EYE_RED, the letter r (R8 EYE_CMD, R97). -/
abbrev Config.eyeRed : Byte := 0x72#8
/-- The command byte of EYE_GREEN, the letter g (R8 EYE_CMD, R97). -/
abbrev Config.eyeGreen : Byte := 0x67#8
/-- The command byte of EYE_BLUE, the letter b (R8 EYE_CMD, R97). -/
abbrev Config.eyeBlue : Byte := 0x62#8
/-- BATT_RESET: the reset value of both battery estimates (R9, R32). -/
abbrev Config.battReset : Percent := 100#16
/-- SLIDER_INIT: the reset value of a slider's `value` (R9, R38). -/
abbrev Config.sliderInit : Byte := 50#8

/-- A button id, 0 to NB-1: the 4-bit registers `capBtnId` and `pressId` hold nothing else at any time (R42),
so the type carries the bound (notes/assumptions/4.md). -/
abbrev ButtonId := Fin Config.nb

/-- A slider id, 0 to NS-1 (R94). -/
abbrev SliderId := Fin Config.ns

/-- The constant fields of a Button record (R33). The field `id` is the record's index. No rule reads `colour`
(RGB565) or `label` (its bytes). -/
structure ButtonGeom where
  x      : U16
  y      : U16
  width  : U16
  colour : U16
  label  : List Byte
  pageId : Nat
deriving DecidableEq, Repr

/-- The constant fields of a Slider record (R37), with the `label` that GEOM has per widget (R9). No rule reads
`colour` or `label`. -/
structure SliderGeom where
  x      : U16
  y      : U16
  width  : U16
  colour : U16
  label  : List Byte
  pageId : Nat
deriving DecidableEq, Repr

/-- The OPEN parameters of table R9: GEOM (one row per widget) and SLIDER_BAND_H. The widths of R10 (a) and (c)
are the fields' own. -/
structure Geometry where
  buttons     : Vector ButtonGeom Config.nb
  sliders     : Vector SliderGeom Config.ns
  sliderBandH : U16
deriving DecidableEq, Repr

/-- A button row of a geometry table as spec/95_test_vectors.md section 0 prints it: x, y, width. -/
def ButtonGeom.at (x y width : U16) : ButtonGeom :=
  { x := x, y := y, width := width, colour := 0, label := [], pageId := Config.activePage }

/-- A slider row of a geometry table: x, y, width. -/
def SliderGeom.at (x y width : U16) : SliderGeom :=
  { x := x, y := y, width := width, colour := 0, label := [], pageId := Config.activePage }

/-- Fixture T1 of spec/95_test_vectors.md section 0: no two hit boxes overlap. -/
def Geometry.fixtureOne : Geometry where
  buttons := #v[
    .at 140 30 100, .at 250 30 100,      -- WALK_MODE, WIGGLE_MODE
    .at 140 70 100, .at 250 70 100,      -- LOW_STEP, HIGH_STEP
    .at 140 110 100, .at 250 110 100,    -- LOW_BODY, HIGH_BODY
    .at 140 150 100, .at 250 150 100,    -- NORMAL_STEP, QUICK_STEP
    .at 140 190 100, .at 250 190 100,    -- TRIPOD_GAIT, RIPPLE_GAIT
    .at 30 30 40, .at 30 70 40, .at 30 110 40]  -- EYE_RED, EYE_GREEN, EYE_BLUE
  sliders := #v[.at 100 225 116, .at 240 225 116]  -- TRIM_A, TRIM_B
  sliderBandH := 20

/-- Fixture T2 of spec/95_test_vectors.md section 0: T1 with EYE_GREEN laid over EYE_RED and TRIM_A over
TRIPOD_GAIT. -/
def Geometry.fixtureTwo : Geometry :=
  { Geometry.fixtureOne with
    buttons := Geometry.fixtureOne.buttons.set 11 (.at 30 50 40)
    sliders := Geometry.fixtureOne.sliders.set 0 (.at 140 190 116) }

end Sys2Proof
end

