-- ==== Sys2Proof/Syntax.lean ====
section
/-! DEFINITION. Syntax.lean: the six operations of table R81 (spec/30_encoding.md), one constructor per row of
spec/opcode_table.json. Every operand has its field's width, so every term of `Instr` is well formed. -/

namespace Sys2Proof

/-- The operations of the block, its instructions (R1, R81). -/
inductive Instr where
  /-- NOP, format N (R82). -/
  | nop
  /-- TICK, format N (R82): Handler A's event. -/
  | tick
  /-- POLL, format T (R83): Handler B's event, one touch sample. -/
  | poll (present : Bool) (x y : U16)
  /-- RXSOC, format B (R84): a received serial byte. -/
  | rxsoc (byte : Byte)
  /-- BATT, format A (R85): a local battery reading. -/
  | batt (adc : Adc)
  /-- STEP, format J (R86): one action of the main loop, with the four joystick readings. -/
  | step (lx ly rx ry : Adc)
deriving DecidableEq, Repr

/-- Why a word is no operation (R88, R89). -/
inductive DecodeError where
  /-- The operation code is one of 0x6 to 0xF, which R88 reserves. -/
  | reserved (opc : OpCode)
deriving DecidableEq, Repr

end Sys2Proof
end

