-- ==== Sys2Proof/WellFormed.lean ====
section
/-! DEFINITION. WellFormed.lean: R10 (spec/00_scope.md), which configurations the block has a meaning for. An
operation needs no check: its operands' widths are its fields' types (R82 to R86). -/

namespace Sys2Proof

/-- R10 (b): every slider is at least 17 wide, so that the divisor of R137 is at least 1. R10 (a) and (c) are the
fields' 16-bit widths, (d) is the page test inside every hit test (R131, R132), (e) holds of the constant
SLIDER_INIT. -/
def Geometry.wf (g : Geometry) : Bool :=
  (List.finRange Config.ns).all fun j => decide (Config.sliderMargin < g.sliders[j].width.toNat)

/-- A well-formed configuration: a geometry with the check of R10 passed. There is no configuration whose check
failed, which is how the model gives such a table no meaning (R10, U8). -/
structure Cfg where
  geom : Geometry
  wf   : geom.wf = true
deriving DecidableEq, Repr

/-- R10: a geometry table becomes a configuration, or is refused. -/
def Geometry.configure (g : Geometry) : Option Cfg :=
  if h : g.wf = true then some ⟨g, h⟩ else none

/-- Fixture T1 as a configuration. -/
def Cfg.fixtureOne : Cfg := ⟨Geometry.fixtureOne, by decide⟩

/-- Fixture T2 as a configuration. -/
def Cfg.fixtureTwo : Cfg := ⟨Geometry.fixtureTwo, by decide⟩

end Sys2Proof
end

