-- ==== Sys2Proof/Decode.lean ====
section
/-! DEFINITION. Decode.lean: the decoder of the 48-bit operation word, total (R89), and the encoder, both from
R80 to R88 (spec/30_encoding.md). -/

namespace Sys2Proof

/-- Bits [47:44] of a word (R80). -/
def opcodeOf (w : OpWord) : OpCode := w.extractLsb' 44 4

/-- The decoder (R81 to R89): the operation code alone selects the operation (R87), and a reserved code is
rejected by name (R88). -/
def decode (w : OpWord) : Except DecodeError Instr :=
  match (opcodeOf w).toNat with
  | 0 => .ok .nop
  | 1 => .ok .tick
  | 2 => .ok (.poll (w.getLsbD 32) (w.extractLsb' 16 16) (w.extractLsb' 0 16))
  | 3 => .ok (.rxsoc (w.extractLsb' 0 8))
  | 4 => .ok (.batt (w.extractLsb' 0 10))
  | 5 => .ok (.step (w.extractLsb' 0 10) (w.extractLsb' 10 10) (w.extractLsb' 20 10) (w.extractLsb' 30 10))
  | _ => .error (.reserved (opcodeOf w))

/-- The operation code of an operation (table R81). -/
def Instr.opcode : Instr → OpCode
  | .nop => 0x0#4
  | .tick => 0x1#4
  | .poll _ _ _ => 0x2#4
  | .rxsoc _ => 0x3#4
  | .batt _ => 0x4#4
  | .step _ _ _ _ => 0x5#4

/-- The encoder (R82 to R86), with the ignored bits 0 (R87). -/
def encode : Instr → OpWord
  | .nop => 0x0#4 ++ 0#44
  | .tick => 0x1#4 ++ 0#44
  | .poll present x y => 0x2#4 ++ (0#11 ++ (BitVec.ofBool present ++ (x ++ y)))
  | .rxsoc byte => 0x3#4 ++ (0#36 ++ byte)
  | .batt adc => 0x4#4 ++ (0#34 ++ adc)
  | .step lx ly rx ry => 0x5#4 ++ (0#4 ++ (ry ++ (rx ++ (ly ++ lx))))

/-- The bits of a word that its operation code does not leave ignored (R82 to R87): the code and the operand
fields of its format. A reserved code has no format: only the code counts. -/
def usedBits (opc : OpCode) : OpWord :=
  match opc.toNat with
  | 2 => 0xF001FFFFFFFF#48
  | 3 => 0xF000000000FF#48
  | 4 => 0xF000000003FF#48
  | 5 => 0xF0FFFFFFFFFF#48
  | _ => 0xF00000000000#48

/-- The instruction the decoder reads from a word numbered as spec/opcode_table.json numbers it; every bit above
`nbits` is 0. An operation word is one unit with no byte order (R64), so its number is the word. -/
def decodeTableWord (nbits w : Nat) : Option Instr :=
  match decode (BitVec.ofNat 48 (w % 2 ^ nbits)) with
  | .ok i => some i
  | .error _ => none

end Sys2Proof
end

