-- ==== Sys2Proof/Machine/State.lean ====
section
/-! DEFINITION. State.lean: the registers of spec/10_state.md with their reset values (R50, R261), the output
ports of the last clock cycle (R14, R15), the outbound stream (R62), the configuration (R9) and the words the
environment still presents (R14, R66). Plain data: no field is a function. -/

namespace Sys2Proof.Machine

/-- `state` of TouchSession, a 2-bit register with codes Idle 0, Settling 1, Active 2; code 3 is never written
and never reached (R22, R91). -/
inductive TouchState where
  | idle
  | settling
  | active
deriving DecidableEq, Repr

/-- `phase`, the main-loop sequencer's 2-bit register with codes DISPATCH 0, FRAME 1, RENDER 2; code 3 is never
written (R29, R92). -/
inductive Phase where
  | dispatch
  | frame
  | render
deriving DecidableEq, Repr

/-- TouchSession (R20 to R23): the debouncer's registers. -/
structure TouchSession where
  state       : TouchState
  settleCount : U16
  x           : U16
  y           : U16
deriving DecidableEq, Repr

/-- The capture registers (R25): the captured button's valid bit and id, and one bit per slider. -/
structure Capture where
  capBtnValid : Bool
  capBtnId    : ButtonId
  capSld      : Vector Bool Config.ns
deriving DecidableEq, Repr

/-- The press mailbox (R26): a slot of depth 1. -/
structure PressMailbox where
  pressValid : Bool
  pressId    : ButtonId
deriving DecidableEq, Repr

/-- The state of one Button record, three bits (R33 to R36). Its constants stand in the configuration. -/
structure Button where
  selected    : Bool
  highlighted : Bool
  dirty       : Bool
deriving DecidableEq, Repr

/-- The state of one Slider record, two bytes (R37 to R39). Its constants stand in the configuration. -/
structure Slider where
  value             : Byte
  lastRenderedValue : Byte
deriving DecidableEq, Repr

/-- A touch event (R90). TapUp's coordinate is the session coordinate, which the port shows for convenience. -/
inductive TouchEvent where
  | none
  | tapDown (x y : U16)
  | dragUpdate (x y : U16)
  | tapUp (x y : U16)
deriving DecidableEq, Repr

/-- The draw record of a RENDER phase (R99): which buttons and sliders to redraw, the full-page request and the
two gauges. -/
structure DrawRecord where
  full        : Bool
  btn         : Vector Bool Config.nb
  sld         : Vector Bool Config.ns
  gaugeLocal  : Percent
  gaugeRemote : Percent
deriving DecidableEq, Repr

/-- `Out` of R15: what one operation shows at the output ports in the cycle after it is accepted. -/
structure Outputs where
  event : TouchEvent
  tx    : List Byte
  draw  : Option DrawRecord
  err   : Bool
deriving DecidableEq, Repr

/-- The idle outputs (R14, R260): no event, no byte, no draw record, no `op_err`. -/
def Outputs.idle : Outputs := { event := .none, tx := [], draw := none, err := false }

/-- The input ports at one rising edge of `clk` (R14). -/
structure ClockInput where
  rst    : Bool
  opValid : Bool
  opWord : OpWord
deriving DecidableEq, Repr

/-- Everything the spec gives the block. `cfg` is the configuration, which no operation writes (R75). `inputs` is
what the environment presents at the coming clock edges, oldest first (R66). `out` is the output ports in the
cycle after the last edge (R14). `tx` is the outbound stream since reset (R62), which no operation reads. The
other fields are the registers of table R50. -/
structure State where
  cfg         : Cfg
  inputs      : List ClockInput
  touch       : TouchSession
  capture     : Capture
  press       : PressMailbox
  controlBits : Byte
  tickAcc     : U16
  phase       : Phase
  fullRedraw  : Bool
  localPct    : Percent
  remotePct   : Percent
  buttons     : Vector Button Config.nb
  sliders     : Vector Slider Config.ns
  out         : Outputs
  tx          : List Byte
deriving DecidableEq, Repr

/-- The reasons the machine stops with a fault. There is none: "No operation can fault, no operand value is
illegal" (R240), so nobody raises one and no run can end in one. -/
inductive Fault
deriving DecidableEq, Repr

/-- The reasons a step has no meaning. -/
inductive Refusal where
  /-- An arm of `exec` whose instruction has no meaning yet. Raised by no arm of this model. Safe: the run stops. -/
  | notModelled (mnemonic : String)
  /-- The word at the operation port has a reserved operation code (R88, U3). Raised by `acceptWord`. Safe: the
  hardware goes on unchanged with an `op_err` pulse, and a run of the model ends here. -/
  | reservedOpcode (opc : OpCode)
deriving DecidableEq, Repr

/-- Nothing captured (R25). -/
def Capture.nothing : Capture :=
  { capBtnValid := false, capBtnId := 0, capSld := Vector.ofFn fun _ => false }

/-- The empty press mailbox (R26). -/
def PressMailbox.empty : PressMailbox := { pressValid := false, pressId := 0 }

/-- The Button file at reset (R34 to R36): the bit-clearing member of each pair selected, none highlighted, all
dirty. -/
def Button.atReset (i : ButtonId) : Button :=
  { selected := decide (i.val < 10) && decide (i.val % 2 = 0), highlighted := false, dirty := true }

/-- A slider at reset (R38, R39): `value` SLIDER_INIT, `lastRenderedValue` 0xFF. -/
def Slider.atReset : Slider := { value := Config.sliderInit, lastRenderedValue := 0xFF#8 }

/-- The reset state of a block with configuration `cfg` (table R50, R261), with nothing presented yet. -/
def State.resetWith (cfg : Cfg) : State where
  cfg := cfg
  inputs := []
  touch := { state := .idle, settleCount := 0, x := 0, y := 0 }
  capture := Capture.nothing
  press := PressMailbox.empty
  controlBits := 0
  tickAcc := 0
  phase := .dispatch
  fullRedraw := true
  localPct := Config.battReset
  remotePct := Config.battReset
  buttons := Vector.ofFn Button.atReset
  sliders := Vector.ofFn fun _ => Slider.atReset
  out := Outputs.idle
  tx := []

/-- The machine right after reset (R261). Every register has the value of table R50. The configuration, which the
spec leaves OPEN, is fixture T1 of spec/95_test_vectors.md (DESIGN CHOICE, unsafe: notes/assumptions/1.md). -/
def State.reset : State := State.resetWith Cfg.fixtureOne

end Sys2Proof.Machine
end

