-- ==== Sys2Proof/Machine/Operands.lean ====
section
/-! DEFINITION. Operands.lean: how an operand becomes the value a rule uses (spec/30_encoding.md R98), and the
arithmetic that brings a result into its register's width (spec/00_scope.md R12). -/

namespace Sys2Proof.Machine

/-- `sat_inc_16` (R12): the increment of `settleCount`, which saturates at 0xFFFF (R21, R111). -/
def satInc16 (n : U16) : U16 := BitVec.ofNat 16 (min 65535 (n.toNat + 1))

/-- `wrap_16(v + 1)` (R12): the increment of `tickAcc` (R180). -/
def wrapInc16 (n : U16) : U16 := BitVec.ofNat 16 ((n.toNat + 1) % 65536)

/-- A joystick byte: the reading shifted right by 2, its bits [9:2] (R98, R184). -/
def joystickByte (v : Adc) : Byte := BitVec.ofNat 8 (v.toNat >>> Config.joyShift)

/-- `pct(adc)` (R201): `tdiv((adc - 500) * 2, 3)` over signed integers, rounding toward zero, not clamped. -/
def localPercent (adc : Adc) : Int :=
  Int.tdiv (((adc.toNat : Int) - Config.battOffset) * Config.battMul) Config.battDiv

/-- A received byte as a percentage: zero-extended (R98, R204). -/
def remotePercent (byte : Byte) : Int := (byte.toNat : Int)

/-- The monotone-decreasing rule (R200): a new value replaces the estimate only if strictly lower. -/
def monotone (e v : Int) : Int := if v < e then v else e

/-- An estimate register after the monotone rule. What is stored is the old value or a value between it and
-333, so it always fits 16 bits (R31, R46). -/
def foldEstimate (e : Percent) (v : Int) : Percent := BitVec.ofInt 16 (monotone e.toInt v)

/-- `slider_value(j, px)` (R137): the linear percentage of `px` across the usable width, which starts half the
margin in from the left edge, clamped to 0..100. -/
def sliderValue (g : SliderGeom) (px : U16) : Byte :=
  let left : Int := (g.x.toNat : Int) - ((g.width.toNat / 2 : Nat) : Int)
  let n : Int := ((px.toNat : Int) - left - ((Config.sliderMargin / 2 : Nat) : Int)) * 100
  let d : Int := (g.width.toNat : Int) - (Config.sliderMargin : Int)
  if n ≤ 0 then 0#8 else BitVec.ofInt 8 (min (Config.sliderMax : Int) (n / d))

/-- A byte with one bit written and the other seven unchanged (R165). -/
def writeBit (b : Byte) (k : Nat) (v : Bool) : Byte :=
  if v then b ||| (1#8 <<< k) else b &&& ~~~(1#8 <<< k)

end Sys2Proof.Machine
end

