-- ==== Sys2Proof/Machine/Flags.lean ====
section
/-! DEFINITION. Flags.lean: every test the rules make on the state, as a Bool: the hit tests (spec/42_widget_model.md
R131, R132), the frame-due test (R185), the highlight test (R220) and the redraw tests (R221). -/

namespace Sys2Proof.Machine

/-- A closed box tested over unbounded integers (R131, R132): `x` the centre, `y` the top edge, the half-width
`width div 2`. -/
def insideBox (x y width : U16) (height : Nat) (px py : U16) : Bool :=
  let hw : Int := ((width.toNat / 2 : Nat) : Int)
  decide ((x.toNat : Int) - hw ≤ (px.toNat : Int)) && decide ((px.toNat : Int) ≤ (x.toNat : Int) + hw) &&
  decide (y.toNat ≤ py.toNat) && decide (py.toNat ≤ y.toNat + height)

/-- `inside_button(i, px, py)` (R131). -/
def insideButton (cfg : Cfg) (i : ButtonId) (px py : U16) : Bool :=
  let g := cfg.geom.buttons[i]
  decide (g.pageId = Config.activePage) && insideBox g.x g.y g.width Config.btnH px py

/-- `inside_slider(j, px, py)` (R132), with the open band height. -/
def insideSlider (cfg : Cfg) (j : SliderId) (px py : U16) : Bool :=
  let g := cfg.geom.sliders[j]
  decide (g.pageId = Config.activePage) && insideBox g.x g.y g.width cfg.geom.sliderBandH.toNat px py

/-- A frame is due when the accumulator exceeds 781, strictly (R185). -/
def frameDue (tickAcc : U16) : Bool := decide (Config.tickDiv < tickAcc.toNat)

/-- What `highlighted` of button `i` becomes at a render pass (R220): captured, and the session coordinate inside
its box. -/
def highlightNow (s : State) (i : ButtonId) : Bool :=
  s.capture.capBtnValid && decide (s.capture.capBtnId = i) && insideButton s.cfg i s.touch.x s.touch.y

/-- Is button `i` on the active page (R24, R221)? -/
def buttonOnPage (cfg : Cfg) (i : ButtonId) : Bool := decide (cfg.geom.buttons[i].pageId = Config.activePage)

/-- Is slider `j` on the active page (R24, R221)? -/
def sliderOnPage (cfg : Cfg) (j : SliderId) : Bool := decide (cfg.geom.sliders[j].pageId = Config.activePage)

/-- `draw_btn[i]` of a render pass, from the refreshed Button file (R221). -/
def drawsButton (s : State) (i : ButtonId) : Bool :=
  buttonOnPage s.cfg i && (s.buttons[i].dirty || s.fullRedraw)

/-- `draw_sld[j]` of a render pass (R221, R224). -/
def drawsSlider (s : State) (j : SliderId) : Bool :=
  sliderOnPage s.cfg j && (decide (s.sliders[j].value ≠ s.sliders[j].lastRenderedValue) || s.fullRedraw)

end Sys2Proof.Machine
end

