-- ==== Sys2Proof/Machine/Ops.lean ====
section
/-! DEFINITION. Ops.lean: the operations shared by the meanings: the idle outputs, the event and draw ports, the
outbound stream, the two register files, the reset and the response to a reserved word. The block has no
addressed memory (R60) and takes no exception (R240, R249), so there is no memory operation and no entry here. -/

namespace Sys2Proof.Machine

/-- Every operation starts with the outputs idle (R14). -/
def State.idle (s : State) : State := { s with out := Outputs.idle }

/-- A POLL reports its event at the event port (R90). -/
def State.report (e : TouchEvent) (s : State) : State := { s with out := { s.out with event := e } }

/-- A RENDER phase shows its draw record (R99). -/
def State.showDraw (d : DrawRecord) (s : State) : State := { s with out := { s.out with draw := some d } }

/-- `TxAppend(bytes)` (R62): the bytes go to the end of the outbound stream, and to the transmit port. -/
def State.txAppend (bytes : List Byte) (s : State) : State :=
  { s with tx := s.tx ++ bytes, out := { s.out with tx := s.out.tx ++ bytes } }

/-- The main-loop sequencer moves (R29). -/
def State.goTo (p : Phase) (s : State) : State := { s with phase := p }

/-- Writes the Button file record by record (R13). -/
def State.mapButtons (f : ButtonId → Button → Button) (s : State) : State :=
  { s with buttons := Vector.ofFn fun i => f i s.buttons[i] }

/-- Writes the Slider file record by record (R13). -/
def State.mapSliders (f : SliderId → Slider → Slider) (s : State) : State :=
  { s with sliders := Vector.ofFn fun j => f j s.sliders[j] }

/-- A clock edge with `rst = 1` (R260): every register takes its reset value, the outputs go idle, the stream is
empty again (R62, R261). The configuration and what the environment presents next stay. -/
def State.clockReset (s : State) : State := { State.resetWith s.cfg with inputs := s.inputs }

/-- What the hardware does with a reserved operation code (R88): no state changes and `op_err` is raised for one
cycle. A run of the model ends at such a word (`Refusal.reservedOpcode`); this is the response it leaves off. -/
def State.opErr (s : State) : State := { s with out := { Outputs.idle with err := true } }

end Sys2Proof.Machine
end

