-- ==== Sys2Proof/Machine/Control.lean ====
section
/-! DEFINITION. Control.lean: the ControlStateMachine: `select`, the dispatch table and the DISPATCH phase
(spec/43_control_state_machine.md). -/

namespace Sys2Proof.Machine

/-- One row of the dispatch table (R163): the buttons to deselect, the ControlBits bit with the value written to
it, and the command byte. -/
structure DispatchRow where
  old     : ButtonId
  other   : Option ButtonId
  bit     : Option (Fin 8 × Bool)
  command : Option Byte
deriving DecidableEq, Repr

/-- The dispatch table `DT`, row by row (table R163; the eye rows also R164). -/
def dispatchTable : Vector DispatchRow Config.nb := #v[
  ⟨1, none, some (0, false), none⟩,                -- 0 WALK_MODE
  ⟨0, none, some (0, true), none⟩,                 -- 1 WIGGLE_MODE
  ⟨3, none, some (1, false), none⟩,                -- 2 LOW_STEP
  ⟨2, none, some (1, true), none⟩,                 -- 3 HIGH_STEP
  ⟨5, none, some (2, false), none⟩,                -- 4 LOW_BODY
  ⟨4, none, some (2, true), none⟩,                 -- 5 HIGH_BODY
  ⟨7, none, some (3, false), none⟩,                -- 6 NORMAL_STEP
  ⟨6, none, some (3, true), none⟩,                 -- 7 QUICK_STEP
  ⟨9, none, some (4, false), none⟩,                -- 8 TRIPOD_GAIT
  ⟨8, none, some (4, true), none⟩,                 -- 9 RIPPLE_GAIT
  ⟨11, some 12, none, some Config.eyeRed⟩,         -- 10 EYE_RED
  ⟨10, some 12, none, some Config.eyeGreen⟩,       -- 11 EYE_GREEN
  ⟨10, some 11, none, some Config.eyeBlue⟩]        -- 12 EYE_BLUE

/-- `select(new, old, other)` on one button's record (R160): `dirty` is set on every named button. -/
def selectOne (new old : ButtonId) (other : Option ButtonId) (i : ButtonId) (b : Button) : Button :=
  if i = new then { b with selected := true, dirty := true }
  else if i = old ∨ some i = other then { b with selected := false, dirty := true }
  else b

/-- `controlBits` after a row's bit is written, if it has one (R165, R168). -/
def applyBit (bit : Option (Fin 8 × Bool)) (b : Byte) : Byte :=
  match bit with
  | some (k, v) => writeBit b k.val v
  | none => b

/-- The work of a DISPATCH phase that takes a press (R165): the mailbox is emptied, `select` runs, the row's bit
is written and its command byte is sent at once. -/
def takePress (s : State) : State :=
  let i := s.press.pressId
  let r := dispatchTable[i]
  let t := { s with press := PressMailbox.empty, controlBits := applyBit r.bit s.controlBits }
  (t.mapButtons (selectOne i r.old r.other)).txAppend r.command.toList

/-- STEP in phase DISPATCH (R165, R166): at most one press is taken, and the phase moves to FRAME. -/
def dispatchPhase (s : State) : State :=
  (if s.press.pressValid then takePress s else s).goTo .frame

end Sys2Proof.Machine
end

