-- ==== Sys2Proof/Machine/Framer.lean ====
section
/-! DEFINITION. Framer.lean: the TelemetryFramer: TICK, `buildFrame` and the FRAME phase
(spec/44_telemetry_framer.md). -/

namespace Sys2Proof.Machine

/-- TICK (R180): Handler A's increment of the tick accumulator, modulo 2^16. -/
def execTick (s : State) : Host.Outcome State Fault Refusal :=
  .next { s.idle with tickAcc := wrapInc16 s.tickAcc }

/-- `buildFrame` (R182, R96): seven bytes, the last the sum of offsets 1 to 5 modulo 256. The command byte takes
no part in the sum (R183; spec/90_conflicts.md C4). -/
def buildFrame (cmd bits lx ly rx ry : Byte) : List Byte :=
  [cmd, bits, lx, ly, rx, ry,
    BitVec.ofNat 8 ((bits.toNat + lx.toNat + ly.toNat + rx.toNat + ry.toNat) % 256)]

/-- The frame a FRAME phase would send now (R186, R190): the current `controlBits` and this STEP's readings. -/
def frameNow (lx ly rx ry : Adc) (s : State) : List Byte :=
  buildFrame Config.cmdChar s.controlBits (joystickByte lx) (joystickByte ly) (joystickByte rx) (joystickByte ry)

/-- STEP in phase FRAME (R186): while a frame is due it is sent and the phase stays; else the phase moves on. -/
def framePhase (lx ly rx ry : Adc) (s : State) : State :=
  if frameDue s.tickAcc then
    { s.txAppend (frameNow lx ly rx ry s) with tickAcc := BitVec.ofNat 16 (s.tickAcc.toNat - Config.tickDiv) }
  else s.goTo .render

end Sys2Proof.Machine
end

