-- ==== Sys2Proof/Machine/MainLoop.lean ====
section
/-! DEFINITION. MainLoop.lean: NOP, STEP and the RENDER phase (spec/46_main_loop_and_render.md). -/

namespace Sys2Proof.Machine

/-- NOP (R215): a clock cycle with no event; no register changes and nothing is output. -/
def execNop (s : State) : Host.Outcome State Fault Refusal := .next s.idle

/-- The highlight refresh (R220): a change of `highlighted` marks the button dirty. -/
def refreshHighlight (s : State) : State :=
  s.mapButtons fun i b =>
    if highlightNow s i = b.highlighted then b
    else { b with highlighted := highlightNow s i, dirty := true }

/-- The draw record of a pass over the refreshed widgets (R221, R99). -/
def drawRecord (s : State) : DrawRecord :=
  { full := s.fullRedraw
    btn := Vector.ofFn fun i => drawsButton s i
    sld := Vector.ofFn fun j => drawsSlider s j
    gaugeLocal := s.localPct
    gaugeRemote := s.remotePct }

/-- The widgets a pass draws are no longer dirty, and a drawn slider's value is the one last rendered (R221,
R223). -/
def clearDrawn (s : State) : State :=
  let t := s.mapButtons fun i b => if drawsButton s i then { b with dirty := false } else b
  t.mapSliders fun j r => if drawsSlider s j then { r with lastRenderedValue := r.value } else r

/-- STEP in phase RENDER (R221). -/
def renderPhase (s : State) : State :=
  let r := refreshHighlight s
  { (clearDrawn r).showDraw (drawRecord r) with fullRedraw := false, phase := .dispatch }

/-- STEP (R216): the action of the current phase. The readings are used only in phase FRAME. -/
def execStep (lx ly rx ry : Adc) (s : State) : Host.Outcome State Fault Refusal :=
  match s.phase with
  | .dispatch => .next (dispatchPhase s.idle)
  | .frame => .next (framePhase lx ly rx ry s.idle)
  | .render => .next (renderPhase s.idle)

end Sys2Proof.Machine
end

