-- ==== Sys2Proof/Machine/Soc.lean ====
section
/-! DEFINITION. Soc.lean: the SocFilter: RXSOC and BATT (spec/45_soc_filter.md). -/

namespace Sys2Proof.Machine

/-- RXSOC (R204): the received byte through the monotone rule into the remote estimate. -/
def execRxsoc (byte : Byte) (s : State) : Host.Outcome State Fault Refusal :=
  .next { s.idle with remotePct := foldEstimate s.remotePct (remotePercent byte) }

/-- BATT (R202): the reading's percentage through the monotone rule into the local estimate. -/
def execBatt (adc : Adc) (s : State) : Host.Outcome State Fault Refusal :=
  .next { s.idle with localPct := foldEstimate s.localPct (localPercent adc) }

end Sys2Proof.Machine
end

