-- ==== Sys2Proof/Machine/Widget.lean ====
section
/-! DEFINITION. Widget.lean: the WidgetModel's three handlers, which run inside POLL (spec/42_widget_model.md). -/

namespace Sys2Proof.Machine

/-- The button a TapDown captures (R133, R134): the loop in ascending id overwrites, so the last match wins. -/
def hitButton (cfg : Cfg) (px py : U16) : Option ButtonId :=
  (List.finRange Config.nb).foldl (fun found i => if insideButton cfg i px py then some i else found) none

/-- The capture registers after `onTapDown` (R133, R136): at most one button, and each slider on its own hit
test. -/
def captureAt (cfg : Cfg) (px py : U16) : Capture :=
  { capBtnValid := (hitButton cfg px py).isSome
    capBtnId := (hitButton cfg px py).getD 0
    capSld := Vector.ofFn fun j => insideSlider cfg j px py }

/-- `onTapDown` (R133): sets the capture registers and changes nothing else. -/
def onTapDown (px py : U16) (s : State) : State := { s with capture := captureAt s.cfg px py }

/-- `onDragUpdate` (R137): a captured slider with the coordinate inside its box follows it; nothing else
changes. -/
def onDragUpdate (px py : U16) (s : State) : State :=
  s.mapSliders fun j r =>
    if s.capture.capSld[j] && insideSlider s.cfg j px py
    then { r with value := sliderValue s.cfg.geom.sliders[j] px }
    else r

/-- Is a TapUp an accepted press (R139)? A button is captured and the session coordinate is in its box. -/
def pressAccepted (s : State) : Bool :=
  s.capture.capBtnValid && insideButton s.cfg s.capture.capBtnId s.touch.x s.touch.y

/-- `onTapUp` (R139): an accepted press overwrites the mailbox, and the captures are cleared either way. -/
def onTapUp (s : State) : State :=
  { s with
    press := if pressAccepted s then { pressValid := true, pressId := s.capture.capBtnId } else s.press
    capture := Capture.nothing }

end Sys2Proof.Machine
end

