-- ==== Sys2Proof/Machine/Touch.lean ====
section
/-! DEFINITION. Touch.lean: the TouchDebouncer and the POLL operation (spec/41_touch_debouncer.md). -/

namespace Sys2Proof.Machine

/-- POLL with `present = 1` (R110): the counter is incremented before the comparison (R111), the session
coordinate is written as a pair (R23), and the handler of the event runs in the same operation (R125). -/
def pollPresent (sx sy : U16) (s : State) : State :=
  let n := satInc16 s.touch.settleCount
  if n.toNat < Config.debounceN then
    { s with touch := { state := .settling, settleCount := n, x := sx, y := sy } }.report .none
  else if n.toNat = Config.debounceN then
    onTapDown sx sy ({ s with touch := { state := .active, settleCount := n, x := sx, y := sy } }.report (.tapDown sx sy))
  else
    onDragUpdate sx sy ({ s with touch := { state := .active, settleCount := n, x := sx, y := sy } }.report (.dragUpdate sx sy))

/-- POLL with `present = 0` (R110): a contact that reached 3 ends in a TapUp (R115), a shorter one is noise
(R116). The counter and `state` are cleared and the session coordinate stays (R23). -/
def pollAbsent (s : State) : State :=
  let after := if Config.debounceN ≤ s.touch.settleCount.toNat
    then onTapUp (s.report (.tapUp s.touch.x s.touch.y))
    else s.report .none
  { after with touch := { after.touch with state := .idle, settleCount := 0 } }

/-- POLL (R110). -/
def execPoll (present : Bool) (x y : U16) (s : State) : Host.Outcome State Fault Refusal :=
  .next (if present then pollPresent x y s.idle else pollAbsent s.idle)

end Sys2Proof.Machine
end

