-- ==== Sys2Proof/Machine/Dispatch.lean ====
section
/-! DEFINITION. Dispatch.lean: one arm per operation (table R81). -/

namespace Sys2Proof.Machine

/-- The operation of a decoded word (R81). -/
def exec (i : Instr) (s : State) : Host.Outcome State Fault Refusal :=
  match i with
  | .nop => Sys2Proof.Machine.execNop s
  | .tick => Sys2Proof.Machine.execTick s
  | .poll present x y => Sys2Proof.Machine.execPoll present x y s
  | .rxsoc byte => Sys2Proof.Machine.execRxsoc byte s
  | .batt adc => Sys2Proof.Machine.execBatt adc s
  | .step lx ly rx ry => Sys2Proof.Machine.execStep lx ly rx ry s

end Sys2Proof.Machine
end

