-- ==== Sys2Proof/Machine/Clock.lean ====
section
/-! DEFINITION. Clock.lean: what the block does with the input ports at one rising edge of `clk` (R14, R66,
R260). -/

namespace Sys2Proof.Machine

/-- A word accepted at the operation port: its operation runs, or a reserved code ends the run by name (R88). -/
def acceptWord (w : OpWord) (s : State) : Host.Outcome State Fault Refusal :=
  match decode w with
  | .ok i => exec i s
  | .error (.reserved opc) => .refused (.reservedOpcode opc)

/-- One edge: reset wins over a word (R260), a word is accepted while `op_valid = 1` (R80), and an edge with
neither leaves the registers and idles the outputs (R14). -/
def clockEdge (c : ClockInput) (s : State) : Host.Outcome State Fault Refusal :=
  if c.rst then .next s.clockReset
  else if c.opValid then acceptWord c.opWord s
  else .next s.idle

end Sys2Proof.Machine
end

