-- ==== Sys2Proof/Machine/Step.lean ====
section
/-! DEFINITION. Step.lean: one step is one rising edge of `clk` (R66). -/

namespace Sys2Proof.Machine

/-- One clock edge. The environment's next input is taken; with none left the edge has `rst = 0` and
`op_valid = 0`. -/
def step (s : State) : Host.Outcome State Fault Refusal :=
  match s.inputs with
  | [] => clockEdge { rst := false, opValid := false, opWord := 0 } s
  | c :: rest => clockEdge c { s with inputs := rest }

/-- The state with one operation word presented at the operation port at the next edge, before whatever the
environment presents later. -/
def State.withFetchWord (s : State) (nbits w : Nat) : State :=
  { s with inputs := { rst := false, opValid := true, opWord := BitVec.ofNat 48 (w % 2 ^ nbits) } :: s.inputs }

end Sys2Proof.Machine
end

