-- ==== Sys2Proof/Machine/Ports.lean ====
section
/-! DEFINITION. Ports.lean: the output ports as bits (spec/00_scope.md R14; spec/30_encoding.md R90, R99, R100). -/

namespace Sys2Proof.Machine

/-- The draw lines while `draw_valid = 1` (R14, R99). -/
structure DrawPort where
  full        : Bool
  btn         : BitVec 13
  sld         : BitVec 2
  gaugeLocal  : BitVec 16
  gaugeRemote : BitVec 16
deriving DecidableEq, Repr

/-- The output ports (R14), valid in the cycle after an operation is accepted. While `draw_valid = 0` the spec gives
the other draw lines no value, and `draw` is none (notes/assumptions/8.md). -/
structure Ports where
  evKind  : BitVec 2
  evX     : U16
  evY     : U16
  txLen   : BitVec 3
  txBytes : BitVec 56
  draw    : Option DrawPort
  opErr   : Bool
deriving DecidableEq, Repr

/-- `draw_valid` (R14, R99). -/
def Ports.drawValid (p : Ports) : Bool := p.draw.isSome

/-- `ev_kind` (R90): None 0, TapDown 1, DragUpdate 2, TapUp 3. -/
def TouchEvent.kind : TouchEvent → BitVec 2
  | .none => 0#2
  | .tapDown _ _ => 1#2
  | .dragUpdate _ _ => 2#2
  | .tapUp _ _ => 3#2

/-- `ev_x`, `ev_y` (R90): the event's coordinate, and 0 for None. -/
def TouchEvent.coord : TouchEvent → U16 × U16
  | .none => (0, 0)
  | .tapDown x y => (x, y)
  | .dragUpdate x y => (x, y)
  | .tapUp x y => (x, y)

/-- `tx_bytes` (R63, R100): byte k in bits [8k+7:8k], byte 0 lowest, and 0 with no byte. Bits [55:8] with one byte are
0 (DESIGN CHOICE, unsafe: the spec gives them no value; notes/assumptions/16.md). -/
def packBytes (bytes : List Byte) : BitVec 56 :=
  bytes.foldr (fun b acc => (acc <<< 8) ||| b.setWidth 56) 0

/-- Bit `i` of a mask is entry `i` of the file (R99). -/
def maskOf {n : Nat} (v : Vector Bool n) : BitVec n := BitVec.ofFnLE fun i => v[i]

/-- A draw record as bits (R99). -/
def DrawRecord.port (d : DrawRecord) : DrawPort :=
  { full := d.full, btn := maskOf d.btn, sld := maskOf d.sld, gaugeLocal := d.gaugeLocal, gaugeRemote := d.gaugeRemote }

/-- The outputs of an operation as port values (R14). -/
def Outputs.ports (o : Outputs) : Ports where
  evKind := o.event.kind
  evX := o.event.coord.1
  evY := o.event.coord.2
  txLen := BitVec.ofNat 3 o.tx.length
  txBytes := packBytes o.tx
  draw := o.draw.map DrawRecord.port
  opErr := o.err

/-- The block's output ports now (R14). -/
def State.ports (s : State) : Ports := s.out.ports

end Sys2Proof.Machine
end

