-- ==== Sys2Proof/Machine/Registers.lean ====
section
/-! DEFINITION. Registers.lean: the registers of table R50 by name, each as the number its level output shows
(spec/00_scope.md R14), and table R48 of spec/10_state.md: which operation writes and which reads each. -/

namespace Sys2Proof.Machine

/-- The registers of table R50. `controlBits` and `capSld` are named bit by bit, the register files record by
record (R60). -/
inductive Reg where
  | state
  | settleCount
  | x
  | y
  | capBtnValid
  | capBtnId
  | capSld (j : SliderId)
  | pressValid
  | pressId
  | controlBit (k : Fin 8)
  | tickAcc
  | phase
  | fullRedraw
  | localPct
  | remotePct
  | selected (i : ButtonId)
  | highlighted (i : ButtonId)
  | dirty (i : ButtonId)
  | value (j : SliderId)
  | lastRendered (j : SliderId)
deriving DecidableEq, Repr

/-- The width of a register (table R50). -/
def Reg.width : Reg → Nat
  | .state | .phase => 2
  | .settleCount | .x | .y | .tickAcc | .localPct | .remotePct => 16
  | .capBtnId | .pressId => 4
  | .value _ | .lastRendered _ => 8
  | .capBtnValid | .capSld _ | .pressValid | .controlBit _ | .fullRedraw | .selected _ | .highlighted _ | .dirty _ => 1

/-- The codes of `state` (R91). -/
def TouchState.code : TouchState → Nat
  | .idle => 0
  | .settling => 1
  | .active => 2

/-- The codes of `phase` (R92). -/
def Phase.code : Phase → Nat
  | .dispatch => 0
  | .frame => 1
  | .render => 2

/-- The level output of a register: its bits as an unsigned number (R14). -/
def Reg.bits (s : State) : Reg → Nat
  | .state => s.touch.state.code
  | .settleCount => s.touch.settleCount.toNat
  | .x => s.touch.x.toNat
  | .y => s.touch.y.toNat
  | .capBtnValid => s.capture.capBtnValid.toNat
  | .capBtnId => s.capture.capBtnId.val
  | .capSld j => s.capture.capSld[j].toNat
  | .pressValid => s.press.pressValid.toNat
  | .pressId => s.press.pressId.val
  | .controlBit k => (s.controlBits.getLsbD k.val).toNat
  | .tickAcc => s.tickAcc.toNat
  | .phase => s.phase.code
  | .fullRedraw => s.fullRedraw.toNat
  | .localPct => s.localPct.toNat
  | .remotePct => s.remotePct.toNat
  | .selected i => s.buttons[i].selected.toNat
  | .highlighted i => s.buttons[i].highlighted.toNat
  | .dirty i => s.buttons[i].dirty.toNat
  | .value j => s.sliders[j].value.toNat
  | .lastRendered j => s.sliders[j].lastRenderedValue.toNat

/-- Is `i` a POLL? -/
def isPoll : Instr → Bool
  | .poll _ _ _ => true
  | .nop | .tick | .rxsoc _ | .batt _ | .step _ _ _ _ => false

/-- Is `i` a POLL with `present = 1`? -/
def isPresent : Instr → Bool
  | .poll present _ _ => present
  | .nop | .tick | .rxsoc _ | .batt _ | .step _ _ _ _ => false

/-- Is `i` a STEP performed in phase `p`? -/
def isStepIn (p : Phase) (i : Instr) (s : State) : Bool :=
  match i with
  | .step _ _ _ _ => decide (s.phase = p)
  | .nop | .tick | .poll _ _ _ | .rxsoc _ | .batt _ => false

/-- Does `i` report TapDown (R113)? -/
def isTapDown (i : Instr) (s : State) : Bool := isPresent i && decide (s.touch.settleCount.toNat = 2)

/-- Does `i` report DragUpdate (R114)? -/
def isDrag (i : Instr) (s : State) : Bool := isPresent i && decide (3 ≤ s.touch.settleCount.toNat)

/-- Does `i` report TapUp (R115)? -/
def isTapUp (i : Instr) (s : State) : Bool :=
  isPoll i && !isPresent i && decide (3 ≤ s.touch.settleCount.toNat)

/-- Is `i` a STEP, in any phase? -/
def isStep : Instr → Bool
  | .step _ _ _ _ => true
  | .nop | .tick | .poll _ _ _ | .rxsoc _ | .batt _ => false

/-- The column "written by" of table R48, for the operation `i` in the state `s`. -/
def Reg.writtenBy (i : Instr) (s : State) : Reg → Bool
  | .settleCount | .state => isPoll i
  | .x | .y => isPresent i
  | .capBtnValid | .capBtnId | .capSld _ => isTapDown i s || isTapUp i s
  | .value _ => isDrag i s
  | .lastRendered _ => isStepIn .render i s
  | .pressValid | .pressId => isTapUp i s || isStepIn .dispatch i s
  | .selected _ => isStepIn .dispatch i s
  | .highlighted _ => isStepIn .render i s
  | .dirty _ => isStepIn .dispatch i s || isStepIn .render i s
  | .controlBit _ => isStepIn .dispatch i s
  | .tickAcc => decide (i = .tick) || isStepIn .frame i s
  | .phase => isStep i
  | .fullRedraw => isStepIn .render i s
  | .localPct => match i with | .batt _ => true | _ => false
  | .remotePct => match i with | .rxsoc _ => true | _ => false

/-- The column "read by" of table R48, for the operation `i` in the state `s`. The Renderer's reads of level
outputs are not operations. -/
def Reg.readBy (i : Instr) (s : State) : Reg → Bool
  | .settleCount | .state => isPoll i
  | .x | .y => isTapUp i s || isStepIn .render i s
  | .capBtnValid | .capBtnId | .capSld _ => isPoll i || isStepIn .render i s
  | .value _ => isStepIn .render i s
  | .lastRendered _ => isStepIn .render i s
  | .pressValid | .pressId => isStepIn .dispatch i s
  | .selected _ => false
  | .highlighted _ => isStepIn .render i s
  | .dirty _ => isStepIn .render i s
  | .controlBit _ => isStepIn .frame i s
  | .tickAcc => isStepIn .frame i s
  | .phase => isStep i
  | .fullRedraw => isStepIn .render i s
  | .localPct => (match i with | .batt _ => true | _ => false) || isStepIn .render i s
  | .remotePct => (match i with | .rxsoc _ => true | _ => false) || isStepIn .render i s

/-- Is the operation listed for the register, in either column of table R48? -/
def Reg.listedFor (i : Instr) (s : State) (r : Reg) : Bool := r.writtenBy i s || r.readBy i s

end Sys2Proof.Machine
end

