-- ==== Sys2Proof/Machine/Trace.lean ====
section
/-! DEFINITION. Trace.lean: traces of operations: their run as a fold of `exec` with its observable history
(spec/00_scope.md R15, spec/20_memory.md R66), their text and pseudo-operations (spec/30_encoding.md R101, R102). -/

namespace Sys2Proof.Machine

/-- The state after a trace: the fold of the operations over it (R15, R66). -/
def runOps : List Instr → State → Host.Outcome State Fault Refusal
  | [], s => .next s
  | i :: rest, s =>
    match exec i s with
    | .next t => runOps rest t
    | .fault f => .fault f
    | .refused r => .refused r

/-- The output records of a trace, one per operation (R15). -/
def outsOf : List Instr → State → List Outputs
  | [], _ => []
  | i :: rest, s =>
    match exec i s with
    | .next t => t.out :: outsOf rest t
    | .fault _ => []
    | .refused _ => []

/-- The events of a trace, one per operation: an operation other than POLL reports None (R15, R90). -/
def eventsOf (ops : List Instr) (s : State) : List TouchEvent := (outsOf ops s).map Outputs.event

/-- The bytes a trace appends to the outbound stream (R15, R62). -/
def bytesOf (ops : List Instr) (s : State) : List Byte := (outsOf ops s).flatMap Outputs.tx

/-- The draw records of a trace (R15). -/
def drawsOf (ops : List Instr) (s : State) : List DrawRecord := (outsOf ops s).filterMap Outputs.draw

/-- The operations of a trace presented at the operation port, one per coming clock edge (R66). -/
def State.present (ops : List Instr) (s : State) : State :=
  { s with inputs := ops.map (fun i => { rst := false, opValid := true, opWord := encode i }) ++ s.inputs }

/-- The frames that successive FRAME phases emit before none is due (R188). -/
def framesDue (tickAcc : U16) : Nat := (tickAcc.toNat - 1) / Config.tickDiv

/-- How many STEPs LOOP stands for (R102): up to and including one performed in phase RENDER. -/
def loopLength (s : State) : Nat :=
  match s.phase with
  | .dispatch => framesDue s.tickAcc + 3
  | .frame => framesDue s.tickAcc + 2
  | .render => 1

/-- One line of a trace: an operation (R101) or a pseudo-operation (R102). -/
inductive TraceOp where
  | op (i : Instr)
  | ticks (n : Nat)
  | contact (x y : U16) (n : Nat)
  | release
  | tap (x y : U16)
  | loop (lx ly rx ry : Adc)
deriving DecidableEq, Repr

/-- The expansion of a pseudo-operation (R102); LOOP's depends on the state it starts in. -/
def TraceOp.expand (s : State) : TraceOp → List Instr
  | .op i => [i]
  | .ticks n => List.replicate n .tick
  | .contact x y n => List.replicate n (.poll true x y)
  | .release => [.poll false 0 0]
  | .tap x y => List.replicate 3 (.poll true x y) ++ [.poll false 0 0]
  | .loop lx ly rx ry => List.replicate (loopLength s) (.step lx ly rx ry)

/-- The run of a trace with pseudo-operations. -/
def runTrace : List TraceOp → State → Host.Outcome State Fault Refusal
  | [], s => .next s
  | o :: rest, s =>
    match runOps (o.expand s) s with
    | .next t => runTrace rest t
    | .fault f => .fault f
    | .refused r => .refused r

/-- The value of a digit below `base`, either case of hexadecimal. -/
def digit (base : Nat) (c : Char) : Option Nat :=
  let v :=
    if '0' ≤ c ∧ c ≤ '9' then c.toNat - '0'.toNat
    else if 'a' ≤ c ∧ c ≤ 'f' then c.toNat - 'a'.toNat + 10
    else if 'A' ≤ c ∧ c ≤ 'F' then c.toNat - 'A'.toNat + 10
    else base
  if v < base then some v else none

/-- A number written in the given base, at least one digit. -/
def digits (base : Nat) (cs : List Char) : Option Nat :=
  if cs.isEmpty then none
  else cs.foldl (fun acc c => acc.bind fun a => (digit base c).map fun d => a * base + d) (some 0)

/-- An operand: decimal, or hexadecimal after 0x (R101), at most `max`. -/
def operand (max : Nat) (cs : List Char) : Option Nat :=
  let v := match cs with
    | '0' :: 'x' :: hex => digits 16 hex
    | _ => digits 10 cs
  v.bind fun n => if n ≤ max then some n else none

/-- The words of a line up to its comment (R101): separated by spaces. -/
def lineWords (line : List Char) : List (List Char) :=
  let code := line.takeWhile fun c => decide (c ≠ '#')
  let (words, last) := code.foldl
    (fun (acc : List (List Char) × List Char) c =>
      if c = ' ' then (acc.1 ++ [acc.2], []) else (acc.1, acc.2 ++ [c])) ([], [])
  (words ++ [last]).filter fun w => !w.isEmpty

/-- The operands of a line, each within its bound. -/
def operands : List Nat → List (List Char) → Option (List Nat)
  | [], [] => some []
  | max :: maxes, w :: ws =>
    match operand max w, operands maxes ws with
    | some n, some ns => some (n :: ns)
    | _, _ => none
  | _, _ => none

/-- One line of a trace file (R101, R102): `some none` for an empty or comment line, `none` for a line that is no
trace line. -/
def parseLine (line : List Char) : Option (Option TraceOp) :=
  match lineWords line with
  | [] => some none
  | mnemonic :: args =>
    if mnemonic = ['N', 'O', 'P'] then
      match args with
      | [] => some (some (.op .nop))
      | _ => none
    else if mnemonic = ['T', 'I', 'C', 'K'] then
      match args with
      | [] => some (some (.op .tick))
      | _ => none
    else if mnemonic = ['P', 'O', 'L', 'L'] then
      match operands [1, 65535, 65535] args with
      | some [p, x, y] => some (some (.op (.poll (p == 1) (BitVec.ofNat 16 x) (BitVec.ofNat 16 y))))
      | _ => none
    else if mnemonic = ['R', 'X', 'S', 'O', 'C'] then
      match operands [255] args with
      | some [b] => some (some (.op (.rxsoc (BitVec.ofNat 8 b))))
      | _ => none
    else if mnemonic = ['B', 'A', 'T', 'T'] then
      match operands [1023] args with
      | some [a] => some (some (.op (.batt (BitVec.ofNat 10 a))))
      | _ => none
    else if mnemonic = ['S', 'T', 'E', 'P'] then
      match args, operands [1023, 1023, 1023, 1023] args with
      | [], _ => some (some (.op (.step 0 0 0 0)))
      | _, some [lx, ly, rx, ry] =>
        some (some (.op (.step (BitVec.ofNat 10 lx) (BitVec.ofNat 10 ly) (BitVec.ofNat 10 rx) (BitVec.ofNat 10 ry))))
      | _, _ => none
    else if mnemonic = ['T', 'I', 'C', 'K', 'S'] then
      match args with
      | [n] => (digits 10 n).map fun k => some (.ticks k)
      | _ => none
    else if mnemonic = ['C', 'O', 'N', 'T', 'A', 'C', 'T'] then
      match args with
      | [x, y, n] =>
        match operands [65535, 65535] [x, y], digits 10 n with
        | some [px, py], some k => some (some (.contact (BitVec.ofNat 16 px) (BitVec.ofNat 16 py) k))
        | _, _ => none
      | _ => none
    else if mnemonic = ['R', 'E', 'L', 'E', 'A', 'S', 'E'] then
      match args with
      | [] => some (some .release)
      | _ => none
    else if mnemonic = ['T', 'A', 'P'] then
      match operands [65535, 65535] args with
      | some [x, y] => some (some (.tap (BitVec.ofNat 16 x) (BitVec.ofNat 16 y)))
      | _ => none
    else if mnemonic = ['L', 'O', 'O', 'P'] then
      match args, operands [1023, 1023, 1023, 1023] args with
      | [], _ => some (some (.loop 0 0 0 0))
      | _, some [lx, ly, rx, ry] =>
        some (some (.loop (BitVec.ofNat 10 lx) (BitVec.ofNat 10 ly) (BitVec.ofNat 10 rx) (BitVec.ofNat 10 ry)))
      | _, _ => none
    else none

/-- A trace file, line by line; blank and comment lines drop out. -/
def parseTrace : List (List Char) → Option (List TraceOp)
  | [] => some []
  | line :: rest =>
    match parseLine line, parseTrace rest with
    | some none, some ops => some ops
    | some (some o), some ops => some (o :: ops)
    | _, _ => none

end Sys2Proof.Machine
end

