-- ==== Sys2Proof/Safety.lean ====
section
/-! DEFINITION. Safety.lean: the terms the statements use: the invariants of spec/10_state.md section 9, the states a
run from reset reaches, and what an operation leaves unchanged. -/

namespace Sys2Proof.Machine

/-- R22: which of the three states a settle count stands for. -/
def sessionStateOf (n : U16) : TouchState :=
  if n.toNat = 0 then .idle else if n.toNat ≤ 2 then .settling else .active

/-- R43: each pair group has exactly one selected member and its ControlBits bit says which, at most one eye button
is selected, and bits 7 to 5 are 0. -/
def GroupsExclusive (s : State) : Prop :=
  (∀ (k : Fin 5) (even odd : ButtonId), even.val = 2 * k.val → odd.val = 2 * k.val + 1 →
      s.controlBits.getLsbD k.val = s.buttons[odd].selected ∧
      s.buttons[even].selected = !s.buttons[odd].selected) ∧
  (∀ i j : ButtonId, 10 ≤ i.val → 10 ≤ j.val → s.buttons[i].selected = true → s.buttons[j].selected = true → i = j) ∧
  s.controlBits.extractLsb' 5 3 = 0

/-- The invariants R40, R41, R43, R44 and R46, with the cleared ids of R25 and R26. R42 and R47's range of `phase`
are the registers' types. -/
structure Inv (s : State) : Prop where
  /-- R40: `state` agrees with `settleCount`. -/
  stateAgrees : s.touch.state = sessionStateOf s.touch.settleCount
  /-- R41: captures exist only in a contact of at least 3 samples. -/
  captureInContact :
    (s.capture.capBtnValid = true ∨ ∃ j : SliderId, s.capture.capSld[j] = true) → 3 ≤ s.touch.settleCount.toNat
  /-- R25: `capBtnId` is written 0 when the capture is cleared. -/
  noCaptureNoId : s.capture.capBtnValid = false → s.capture.capBtnId = 0
  /-- R26: `pressId` is written 0 when the press is taken. -/
  noPressNoId : s.press.pressValid = false → s.press.pressId = 0
  /-- R43. -/
  groups : GroupsExclusive s
  /-- R44: every slider value is in 0..100. -/
  sliderRange : ∀ j : SliderId, s.sliders[j].value.toNat ≤ 100
  /-- R46: the range of the local estimate. -/
  localRange : -333 ≤ s.localPct.toInt ∧ s.localPct.toInt ≤ 100
  /-- R46: the range of the remote estimate. -/
  remoteRange : 0 ≤ s.remotePct.toInt ∧ s.remotePct.toInt ≤ 100

/-- The states of a run: it starts at reset with any configuration and any inputs (R15, R262), and goes on edge by
edge. -/
inductive Reachable : State → Prop where
  | start (cfg : Cfg) (inputs : List ClockInput) : Reachable { State.resetWith cfg with inputs := inputs }
  | edge {s t : State} : Reachable s → step s = .next t → Reachable t

/-- Every register but those of `written`, the configuration and the coming inputs are unchanged. -/
def OnlyWrites (written : List Reg) (s t : State) : Prop :=
  (∀ r : Reg, r ∉ written → r.bits t = r.bits s) ∧ t.cfg = s.cfg ∧ t.inputs = s.inputs

/-- An operation that shows nothing at the output ports and sends nothing. -/
def Silent (s t : State) : Prop := t.out = Outputs.idle ∧ t.tx = s.tx

/-- An operation whose only output is the event `e`. -/
def Reports (e : TouchEvent) (s t : State) : Prop :=
  t.out = { event := e, tx := [], draw := none, err := false } ∧ t.tx = s.tx

/-- An operation whose only output is the bytes `bytes`, appended to the stream. -/
def Sends (bytes : List Byte) (s t : State) : Prop :=
  t.out = { event := .none, tx := bytes, draw := none, err := false } ∧ t.tx = s.tx ++ bytes

/-- The point is in the box of R131 and R132, written as the spec writes it: over the integers, edges included. -/
def InBox (x y width height : Nat) (px py : Nat) : Prop :=
  (x : Int) - (width / 2 : Nat) ≤ px ∧ (px : Int) ≤ x + (width / 2 : Nat) ∧ y ≤ py ∧ py ≤ y + height

/-- R131 for button `i`: on the active page, and the point in its box of height 28. -/
def InButton (cfg : Cfg) (i : ButtonId) (px py : U16) : Prop :=
  let g := cfg.geom.buttons[i]
  g.pageId = 0 ∧ InBox g.x.toNat g.y.toNat g.width.toNat 28 px.toNat py.toNat

/-- R132 for slider `j`: on the active page, and the point in its band. -/
def InSlider (cfg : Cfg) (j : SliderId) (px py : U16) : Prop :=
  let g := cfg.geom.sliders[j]
  g.pageId = 0 ∧ InBox g.x.toNat g.y.toNat g.width.toNat cfg.geom.sliderBandH.toNat px.toNat py.toNat

end Sys2Proof.Machine
end

