-- ==== Sys2Proof/Certificates/Slice0/Obligations.lean ====
section
/-! DEFINITION. Obligations.lean: the statements about the block, in the order of OBLIGATIONS.json. -/

open Sys2Proof Sys2Proof.Machine

/-! Encoding (spec/30_encoding.md). -/

/-- Encoding then decoding an operation returns it; decoding then encoding a word clears its ignored bits; every
word is an operation or a reserved code, by its operation code. (R89, which the spec derives from R80 to R88.) -/
def Obligations.DecodeEncodeRoundTrip : Prop :=
  (∀ i : Instr, decode (encode i) = .ok i) ∧
  (∀ (w : OpWord) (i : Instr), decode w = .ok i → encode i = w &&& usedBits (opcodeOf w)) ∧
  (∀ w : OpWord,
    ((opcodeOf w).toNat ≤ 5 ∧ ∃ i, decode w = .ok i) ∨
    (6 ≤ (opcodeOf w).toNat ∧ decode w = .error (.reserved (opcodeOf w))))

/-- R87: the decoder does not test the ignored bits, the operation code alone selects the operation, and the
encoder writes the ignored bits 0. -/
def Obligations.IgnoredBitsHaveNoEffect : Prop :=
  (∀ w v : OpWord, w &&& usedBits (opcodeOf w) = v &&& usedBits (opcodeOf w) → decode w = decode v) ∧
  (∀ (w : OpWord) (i : Instr), decode w = .ok i → i.opcode = opcodeOf w) ∧
  (∀ i : Instr, encode i &&& ~~~usedBits i.opcode = 0)

/-- R82 to R86: where each format holds its operands, by arithmetic on the word, and which operands the semantics
ignore: the coordinate of an absent sample, and the readings of a STEP that emits no frame. -/
def Obligations.EachFormatReadsItsFields : Prop :=
  (∀ w : OpWord, w.toNat / 2 ^ 44 = 0 → decode w = .ok .nop) ∧
  (∀ w : OpWord, w.toNat / 2 ^ 44 = 1 → decode w = .ok .tick) ∧
  (∀ w : OpWord, w.toNat / 2 ^ 44 = 2 → ∃ (present : Bool) (x y : U16), decode w = .ok (.poll present x y) ∧
    present.toNat = w.toNat / 2 ^ 32 % 2 ∧ x.toNat = w.toNat / 2 ^ 16 % 2 ^ 16 ∧ y.toNat = w.toNat % 2 ^ 16) ∧
  (∀ w : OpWord, w.toNat / 2 ^ 44 = 3 → ∃ byte : Byte, decode w = .ok (.rxsoc byte) ∧
    byte.toNat = w.toNat % 2 ^ 8) ∧
  (∀ w : OpWord, w.toNat / 2 ^ 44 = 4 → ∃ adc : Adc, decode w = .ok (.batt adc) ∧ adc.toNat = w.toNat % 2 ^ 10) ∧
  (∀ w : OpWord, w.toNat / 2 ^ 44 = 5 → ∃ lx ly rx ry : Adc, decode w = .ok (.step lx ly rx ry) ∧
    lx.toNat = w.toNat % 2 ^ 10 ∧ ly.toNat = w.toNat / 2 ^ 10 % 2 ^ 10 ∧
    rx.toNat = w.toNat / 2 ^ 20 % 2 ^ 10 ∧ ry.toNat = w.toNat / 2 ^ 30 % 2 ^ 10) ∧
  (∀ (s : State) (x y x' y' : U16), exec (.poll false x y) s = exec (.poll false x' y') s) ∧
  (∀ (s : State) (lx ly rx ry lx' ly' rx' ry' : Adc), ¬ (s.phase = .frame ∧ 781 < s.tickAcc.toNat) →
    exec (.step lx ly rx ry) s = exec (.step lx' ly' rx' ry') s)

/-- Words printed in the spec (R83 to R86; spec/95_test_vectors.md V-ENC) decode to the operations they stand
for. -/
def Obligations.PrintedWordsDecode : Prop :=
  decode 0x000000000000 = .ok .nop ∧
  decode 0x1ABCDEF01234 = .ok .tick ∧
  decode 0x2001008C001E = .ok (.poll true 140 30) ∧
  decode 0x300000000057 = .ok (.rxsoc 87) ∧
  decode 0x40000000028A = .ok (.batt 650) ∧
  decode 0x502807814028 = .ok (.step 40 80 120 160) ∧
  decode 0x600000000000 = .error (.reserved 6)

/-! The clock edge and the operation port. -/

/-- A word presented at the port that decodes to an operation runs it (R14, R66, R80). The two other clauses are the
model's choice: an edge with neither reset nor a word leaves every register and the stream, with the outputs idle
(notes/assumptions/8.md), and an empty list of inputs is such an edge (notes/assumptions/2.md). -/
def Obligations.StepRunsTheDecodedOperation : Prop :=
  (∀ (s : State) (w : OpWord) (rest : List ClockInput) (i : Instr),
    s.inputs = { rst := false, opValid := true, opWord := w } :: rest → decode w = .ok i →
    step s = exec i { s with inputs := rest }) ∧
  (∀ (s : State) (w : OpWord) (rest : List ClockInput),
    s.inputs = { rst := false, opValid := false, opWord := w } :: rest →
    step s = .next { s with inputs := rest, out := Outputs.idle }) ∧
  (∀ s : State, s.inputs = [] → step s = .next { s with out := Outputs.idle })

/-- R88: a reserved code ends the run by name; what the hardware does is change no register, report nothing but
`op_err`, and accept the next operation normally. -/
def Obligations.ReservedCodeIsRefused : Prop :=
  (∀ (s : State) (w : OpWord) (rest : List ClockInput),
    s.inputs = { rst := false, opValid := true, opWord := w } :: rest → 6 ≤ w.toNat / 2 ^ 44 →
    step s = .refused (.reservedOpcode (opcodeOf w))) ∧
  (∀ s : State, (∀ r : Reg, r.bits s.opErr = r.bits s) ∧ s.opErr.tx = s.tx ∧
    s.opErr.out = { event := .none, tx := [], draw := none, err := true }) ∧
  (∀ (s : State) (i : Instr), exec i s.opErr = exec i s ∧ ∀ t, exec i s = .next t → t.out.err = false)

/-- R240: no operation stops, whatever its operands and the state, and a step stops only at a reserved code. -/
def Obligations.OnlyReservedCodesStop : Prop :=
  (∀ (i : Instr) (s : State), ∃ t, exec i s = .next t) ∧
  (∀ s : State, (∃ t, step s = .next t) ∨
    ∃ (w : OpWord) (rest : List ClockInput),
      s.inputs = { rst := false, opValid := true, opWord := w } :: rest ∧ 6 ≤ w.toNat / 2 ^ 44 ∧
      step s = .refused (.reservedOpcode (opcodeOf w)))

/-- At an edge with `rst = 1` every register takes its reset value and the outputs go idle, whatever word is presented
(R260). That the stream record is emptied and the configuration and the later inputs stay is the model's choice
(notes/assumptions/7.md). -/
def Obligations.ResetWinsOverAnyWord : Prop :=
  ∀ (s : State) (valid : Bool) (w : OpWord) (rest : List ClockInput),
    s.inputs = { rst := true, opValid := valid, opWord := w } :: rest →
    ∃ t, step s = .next t ∧ (∀ r : Reg, r.bits t = r.bits (State.resetWith s.cfg)) ∧ t.out = Outputs.idle ∧
      t.tx = [] ∧ t.cfg = s.cfg ∧ t.inputs = rest

/-- R261: the reset state, for every configuration. (That `State.reset` has a particular configuration is the
model's choice, notes/assumptions/1.md, and is not stated.) -/
def Obligations.ResetStateValues : Prop :=
  ∀ cfg : Cfg, let s := State.resetWith cfg
    s.touch.state = .idle ∧ s.touch.settleCount = 0 ∧ s.touch.x = 0 ∧ s.touch.y = 0 ∧
    s.capture.capBtnValid = false ∧ s.capture.capBtnId = 0 ∧ (∀ j : SliderId, s.capture.capSld[j] = false) ∧
    s.press.pressValid = false ∧ s.press.pressId = 0 ∧ s.controlBits = 0 ∧ s.tickAcc = 0 ∧ s.phase = .dispatch ∧
    s.fullRedraw = true ∧ s.localPct.toInt = 100 ∧ s.remotePct.toInt = 100 ∧
    (∀ i : ButtonId, (s.buttons[i].selected = true ↔ i.val ∈ [0, 2, 4, 6, 8]) ∧
      s.buttons[i].highlighted = false ∧ s.buttons[i].dirty = true) ∧
    (∀ j : SliderId, s.sliders[j].value = 50 ∧ s.sliders[j].lastRenderedValue = 0xFF) ∧
    s.tx = [] ∧ s.out = Outputs.idle ∧ State.reset = State.resetWith State.reset.cfg

/-- R10 (b): a geometry becomes a configuration unless a slider is narrower than 17, and then it is refused. -/
def Obligations.NarrowSliderConfigurationRefused : Prop :=
  ∀ g : Geometry,
    (g.configure = none ↔ ∃ j : SliderId, g.sliders[j].width.toNat < 17) ∧
    (∀ cfg : Cfg, g.configure = some cfg → cfg.geom = g)

/-! NOP, TICK (spec/46_main_loop_and_render.md, spec/44_telemetry_framer.md). -/

/-- R215: NOP changes no register and outputs nothing. -/
def Obligations.NopChangesNothing : Prop :=
  opcodeOf (encode .nop) = 0 ∧
  ∀ s : State, ∃ t, exec .nop s = .next t ∧ OnlyWrites [] s t ∧ Silent s t

/-- R180: TICK adds 1 to the accumulator modulo 2^16 and does nothing else. -/
def Obligations.TickIncrementsTheAccumulator : Prop :=
  opcodeOf (encode .tick) = 1 ∧
  ∀ s : State, ∃ t, exec .tick s = .next t ∧ t.tickAcc.toNat = (s.tickAcc.toNat + 1) % 2 ^ 16 ∧
    OnlyWrites [.tickAcc] s t ∧ Silent s t

/-- Runs of TICKs: the accumulator counts them modulo 2^16 (R181), and from an empty accumulator a frame is due
exactly from the 782nd on (R187, R265, which the spec derives). -/
def Obligations.TicksAccumulateToAFrame : Prop :=
  (∀ (n : Nat) (s : State), ∃ t, runOps (List.replicate n .tick) s = .next t ∧
    t.tickAcc.toNat = (s.tickAcc.toNat + n) % 2 ^ 16 ∧ OnlyWrites [.tickAcc] s t ∧ t.tx = s.tx) ∧
  (∀ (n : Nat) (s t : State), s.tickAcc = 0 → n < 2 ^ 16 → runOps (List.replicate n .tick) s = .next t →
    (frameDue t.tickAcc = true ↔ 782 ≤ n))

/-! POLL (spec/41_touch_debouncer.md, spec/42_widget_model.md). -/

/-- R111, R112: the counter is incremented before the comparison, and the first two samples of a contact report
None and call no handler. -/
def Obligations.PollSuppressesTheFirstTwoSamples : Prop :=
  (∀ (s t : State) (sx sy : U16), exec (.poll true sx sy) s = .next t →
    t.touch.settleCount.toNat = min 65535 (s.touch.settleCount.toNat + 1)) ∧
  (∀ (s t : State) (sx sy : U16), exec (.poll false sx sy) s = .next t → t.touch.settleCount = 0) ∧
  (∀ (s : State) (sx sy : U16), s.touch.settleCount.toNat + 1 < 3 → ∃ t, exec (.poll true sx sy) s = .next t ∧
    t.touch.state = .settling ∧ t.touch.x = sx ∧ t.touch.y = sy ∧ Reports .none s t ∧
    OnlyWrites [.state, .settleCount, .x, .y] s t)

/-- R113, R133, R134, R136: the third sample emits TapDown with its own coordinate and captures the matching button
of highest id and every slider whose box holds the point, independently; nothing else changes. -/
def Obligations.ThirdSampleCaptures : Prop :=
  ∀ (s : State) (sx sy : U16), s.touch.settleCount.toNat + 1 = 3 → ∃ t, exec (.poll true sx sy) s = .next t ∧
    t.touch = { state := .active, settleCount := 3, x := sx, y := sy } ∧ Reports (.tapDown sx sy) s t ∧
    ((t.capture.capBtnValid = true ∧ InButton s.cfg t.capture.capBtnId sx sy ∧
        ∀ i : ButtonId, InButton s.cfg i sx sy → i ≤ t.capture.capBtnId) ∨
      (t.capture.capBtnValid = false ∧ t.capture.capBtnId = 0 ∧ ∀ i : ButtonId, ¬ InButton s.cfg i sx sy)) ∧
    (∀ j : SliderId, t.capture.capSld[j] = true ↔ InSlider s.cfg j sx sy) ∧
    OnlyWrites [.state, .settleCount, .x, .y, .capBtnValid, .capBtnId, .capSld 0, .capSld 1] s t

/-- R114, R137, R138, R142: every later sample emits DragUpdate, and each captured slider whose box holds the
coordinate takes the linear percentage of R137, clamped to 0..100; the other sliders keep their value. -/
def Obligations.DragMovesCapturedSliders : Prop :=
  ∀ (s : State) (sx sy : U16), 3 < s.touch.settleCount.toNat + 1 → ∃ t, exec (.poll true sx sy) s = .next t ∧
    t.touch.state = .active ∧ t.touch.settleCount.toNat = min 65535 (s.touch.settleCount.toNat + 1) ∧
    t.touch.x = sx ∧ t.touch.y = sy ∧ Reports (.dragUpdate sx sy) s t ∧
    (∀ j : SliderId, s.capture.capSld[j] = true → InSlider s.cfg j sx sy →
      let g := s.cfg.geom.sliders[j]
      let left : Int := (g.x.toNat : Int) - (g.width.toNat / 2 : Nat)
      let n : Int := ((sx.toNat : Int) - left - 8) * 100
      let d : Int := (g.width.toNat : Int) - 16
      1 ≤ d ∧ (t.sliders[j].value.toNat : Int) = if n ≤ 0 then 0 else min 100 (n / d)) ∧
    (∀ j : SliderId, ¬ (s.capture.capSld[j] = true ∧ InSlider s.cfg j sx sy) →
      t.sliders[j].value = s.sliders[j].value) ∧
    OnlyWrites [.state, .settleCount, .x, .y, .value 0, .value 1] s t

/-- R115, R139, R144: the release of a contact of at least 3 samples emits TapUp; an accepted press overwrites the
mailbox, whether or not it held one, any other TapUp leaves it, and the captures are cleared either way. -/
def Obligations.ReleasePressesTheCapturedButton : Prop :=
  ∀ (s : State) (sx sy : U16), 3 ≤ s.touch.settleCount.toNat → ∃ t, exec (.poll false sx sy) s = .next t ∧
    t.touch = { state := .idle, settleCount := 0, x := s.touch.x, y := s.touch.y } ∧
    Reports (.tapUp s.touch.x s.touch.y) s t ∧
    (s.capture.capBtnValid = true → InButton s.cfg s.capture.capBtnId s.touch.x s.touch.y →
      t.press = { pressValid := true, pressId := s.capture.capBtnId }) ∧
    (¬ (s.capture.capBtnValid = true ∧ InButton s.cfg s.capture.capBtnId s.touch.x s.touch.y) →
      t.press = s.press) ∧
    t.capture.capBtnValid = false ∧ t.capture.capBtnId = 0 ∧ (∀ j : SliderId, t.capture.capSld[j] = false) ∧
    OnlyWrites [.state, .settleCount, .capBtnValid, .capBtnId, .capSld 0, .capSld 1, .pressValid, .pressId] s t

/-- R116: a contact of one or two samples is discarded: its release reports None and clears only the counter and
`state`, and from no contact the whole of it leaves no trace but the session coordinate. -/
def Obligations.ShortContactIsDiscarded : Prop :=
  (∀ (s : State) (sx sy : U16), s.touch.settleCount.toNat < 3 → ∃ t, exec (.poll false sx sy) s = .next t ∧
    t.touch.state = .idle ∧ t.touch.settleCount = 0 ∧ Reports .none s t ∧
    OnlyWrites [.state, .settleCount] s t) ∧
  (∀ (s : State) (samples : List (U16 × U16)) (sx sy : U16), s.touch.state = .idle → s.touch.settleCount = 0 →
    samples.length < 3 →
    ∃ t, runOps (samples.map (fun p => .poll true p.1 p.2) ++ [.poll false sx sy]) s = .next t ∧
      OnlyWrites [.x, .y] s t ∧ t.tx = s.tx ∧
      (∀ e ∈ eventsOf (samples.map (fun p => .poll true p.1 p.2) ++ [.poll false sx sy]) s, e = .none))

/-- R123, R124: the events of a contact of any length, from no contact to its release: fewer than 3 samples give
nothing; 3 or more give None, None, TapDown, a DragUpdate for each further sample, and TapUp. -/
def Obligations.ContactEventSequence : Prop :=
  (∀ (s : State) (samples : List (U16 × U16)) (sx sy : U16), s.touch.settleCount = 0 → samples.length < 3 →
    eventsOf (samples.map (fun p => .poll true p.1 p.2) ++ [.poll false sx sy]) s =
      List.replicate (samples.length + 1) .none) ∧
  (∀ (s : State) (a b c : U16 × U16) (more : List (U16 × U16)) (sx sy : U16), s.touch.settleCount = 0 →
    let last := more.getLastD c
    eventsOf ((a :: b :: c :: more).map (fun p => .poll true p.1 p.2) ++ [.poll false sx sy]) s =
      .none :: .none :: .tapDown c.1 c.2 :: more.map (fun p => .dragUpdate p.1 p.2) ++ [.tapUp last.1 last.2])

/-- Between two TapUps lie at least 4 POLLs, whatever else runs among them (spec/70_reset_and_hazards.md R271):
with no contact in progress, a trace of fewer than 4 POLLs reports no TapUp. -/
def Obligations.NoTapUpWithinThreePolls : Prop :=
  ∀ (s : State) (ops : List Instr), s.touch.settleCount = 0 → (ops.filter isPoll).length < 4 →
    ∀ x y : U16, .tapUp x y ∉ eventsOf ops s

/-! RXSOC, BATT (spec/45_soc_filter.md). -/

/-- R200, R204: RXSOC stores the received byte, read as 0..255, only if strictly lower. -/
def Obligations.RxsocLowersTheRemoteEstimate : Prop :=
  (∀ byte : Byte, opcodeOf (encode (.rxsoc byte)) = 3) ∧
  ∀ (s : State) (byte : Byte), ∃ t, exec (.rxsoc byte) s = .next t ∧
    t.remotePct.toInt = (if (byte.toNat : Int) < s.remotePct.toInt then (byte.toNat : Int) else s.remotePct.toInt) ∧
    OnlyWrites [.remotePct] s t ∧ Silent s t

/-- R200, R201, R202: BATT converts the reading by (adc - 500) * 2 / 3, rounding toward zero with no clamp, and
stores the result only if strictly lower. -/
def Obligations.BattLowersTheLocalEstimate : Prop :=
  (∀ adc : Adc, opcodeOf (encode (.batt adc)) = 4) ∧
  ∀ (s : State) (adc : Adc), ∃ t, exec (.batt adc) s = .next t ∧
    (let v : Int := Int.tdiv (((adc.toNat : Int) - 500) * 2) 3
     t.localPct.toInt = if v < s.localPct.toInt then v else s.localPct.toInt) ∧
    OnlyWrites [.localPct] s t ∧ Silent s t

/-- R45: neither estimate ever increases, whatever the operation and the state. -/
def Obligations.EstimatesNeverIncrease : Prop :=
  ∀ (i : Instr) (s t : State), exec i s = .next t →
    t.localPct.toInt ≤ s.localPct.toInt ∧ t.remotePct.toInt ≤ s.remotePct.toInt

/-- Reset is the only event that raises an estimate or sets `fullRedraw` (R263, which the spec derives). -/
def Obligations.OnlyResetRaisesAnEstimate : Prop :=
  ∀ s t : State, step s = .next t →
    (s.localPct.toInt < t.localPct.toInt ∨ s.remotePct.toInt < t.remotePct.toInt ∨
      (s.fullRedraw = false ∧ t.fullRedraw = true)) →
    ∃ (valid : Bool) (w : OpWord) (rest : List ClockInput),
      s.inputs = { rst := true, opValid := valid, opWord := w } :: rest

/-! STEP in phase DISPATCH (spec/43_control_state_machine.md). -/

/-- R160, R163, R165: a DISPATCH phase with a pending press. Of pair k, button 2k + v is selected, its partner
deselected, both dirty, and bit k becomes v; an eye button is selected, the other two deselected, all three dirty,
and its letter is sent; the mailbox is emptied and the phase moves on. With no press only the phase moves. -/
def Obligations.DispatchTakesThePress : Prop :=
  (∀ (s : State) (lx ly rx ry : Adc) (k : Fin 8) (v : Bool) (i old : ButtonId), k.val < 5 →
    i.val = 2 * k.val + v.toNat → old.val = 2 * k.val + (!v).toNat →
    s.phase = .dispatch → s.press.pressValid = true → s.press.pressId = i →
    ∃ t, exec (.step lx ly rx ry) s = .next t ∧ t.phase = .frame ∧
      t.press = { pressValid := false, pressId := 0 } ∧
      t.buttons[i].selected = true ∧ t.buttons[i].dirty = true ∧
      t.buttons[old].selected = false ∧ t.buttons[old].dirty = true ∧
      t.controlBits.getLsbD k.val = v ∧ Silent s t ∧
      OnlyWrites [.phase, .pressValid, .pressId, .selected i, .dirty i, .selected old, .dirty old, .controlBit k]
        s t) ∧
  (∀ (s : State) (lx ly rx ry : Adc) (i a b : ButtonId) (letter : Byte),
    (i, a, b, letter) ∈ ([(10, 11, 12, 0x72), (11, 10, 12, 0x67), (12, 10, 11, 0x62)] :
      List (ButtonId × ButtonId × ButtonId × Byte)) →
    s.phase = .dispatch → s.press.pressValid = true → s.press.pressId = i →
    ∃ t, exec (.step lx ly rx ry) s = .next t ∧ t.phase = .frame ∧
      t.press = { pressValid := false, pressId := 0 } ∧
      t.buttons[i].selected = true ∧ t.buttons[i].dirty = true ∧
      t.buttons[a].selected = false ∧ t.buttons[a].dirty = true ∧
      t.buttons[b].selected = false ∧ t.buttons[b].dirty = true ∧ Sends [letter] s t ∧
      OnlyWrites [.phase, .pressValid, .pressId, .selected i, .dirty i, .selected a, .dirty a, .selected b, .dirty b]
        s t) ∧
  (∀ (s : State) (lx ly rx ry : Adc), s.phase = .dispatch → s.press.pressValid = false →
    ∃ t, exec (.step lx ly rx ry) s = .next t ∧ t.phase = .frame ∧ Silent s t ∧ OnlyWrites [.phase] s t)

/-- No operation changes more than one ControlBits bit, or any of bits 7 to 5 (R168, which the spec derives). -/
def Obligations.AtMostOneControlBitChanges : Prop :=
  ∀ (i : Instr) (s t : State), exec i s = .next t →
    (∀ k m : Fin 8, t.controlBits.getLsbD k.val ≠ s.controlBits.getLsbD k.val →
      t.controlBits.getLsbD m.val ≠ s.controlBits.getLsbD m.val → k = m) ∧
    (∀ k : Fin 8, 5 ≤ k.val → t.controlBits.getLsbD k.val = s.controlBits.getLsbD k.val)

/-! STEP in phase FRAME (spec/44_telemetry_framer.md). -/

/-- R184, R185, R186, R189: in phase FRAME with more than 781 ticks, the seven bytes of R96 are sent with the
current ControlBits and this STEP's readings shifted right by 2, 781 is subtracted and the phase stays; else nothing
is sent and the phase moves to RENDER. -/
def Obligations.FramePhaseSendsWhenDue : Prop :=
  (∀ (s : State) (lx ly rx ry : Adc), s.phase = .frame → 781 < s.tickAcc.toNat →
    ∃ t bytes, exec (.step lx ly rx ry) s = .next t ∧ Sends bytes s t ∧
      bytes.map BitVec.toNat = [0x63, s.controlBits.toNat, lx.toNat / 4, ly.toNat / 4, rx.toNat / 4, ry.toNat / 4,
        (s.controlBits.toNat + lx.toNat / 4 + ly.toNat / 4 + rx.toNat / 4 + ry.toNat / 4) % 256] ∧
      t.tickAcc.toNat = s.tickAcc.toNat - 781 ∧ 1 ≤ t.tickAcc.toNat ∧ OnlyWrites [.tickAcc] s t) ∧
  (∀ (s : State) (lx ly rx ry : Adc), s.phase = .frame → s.tickAcc.toNat ≤ 781 →
    ∃ t, exec (.step lx ly rx ry) s = .next t ∧ t.phase = .render ∧ Silent s t ∧ OnlyWrites [.phase] s t)

/-- R182, R183: every constructed frame has seven bytes, copies its arguments to offsets 0 to 5, and its last byte is
the sum of offsets 1 to 5 modulo 256. -/
def Obligations.ChecksumCoversOffsetsOneToFive : Prop :=
  ∀ c b lx ly rx ry : Byte, ∃ sum : Byte, buildFrame c b lx ly rx ry = [c, b, lx, ly, rx, ry, sum] ∧
    (((buildFrame c b lx ly rx ry).drop 1).take 5).foldl (fun acc v => acc + v.toNat) 0 % 256 = sum.toNat

/-- R188: successive STEPs in phase FRAME emit one frame each, each with its own STEP's readings, until the
accumulator is at most 781; only then does the phase move on. -/
def Obligations.FramePhaseDrainsTheBacklog : Prop :=
  ∀ (s : State) (readings : List (Adc × Adc × Adc × Adc)), s.phase = .frame →
    readings.length = (s.tickAcc.toNat - 1) / 781 + 1 →
    let ops : List Instr := readings.map fun r => .step r.1 r.2.1 r.2.2.1 r.2.2.2
    let sent := (readings.take ((s.tickAcc.toNat - 1) / 781)).flatMap fun r =>
      buildFrame 0x63 s.controlBits (joystickByte r.1) (joystickByte r.2.1) (joystickByte r.2.2.1) (joystickByte r.2.2.2)
    ∃ t, runOps ops s = .next t ∧ t.phase = .render ∧ t.tickAcc.toNat ≤ 781 ∧
      t.tickAcc.toNat = s.tickAcc.toNat - 781 * ((s.tickAcc.toNat - 1) / 781) ∧
      t.tx = s.tx ++ sent ∧ bytesOf ops s = sent ∧ OnlyWrites [.tickAcc, .phase] s t

/-! STEP in phase RENDER (spec/46_main_loop_and_render.md). -/

/-- R220, R221, R222, R224: a render pass refreshes the highlights from the capture and the session coordinate,
reports in one draw record every dirty button and every slider whose value changed since it was drawn (all of them
on a full redraw) with both gauges, and clears exactly what it reported. -/
def Obligations.RenderPassDrawsAndClears : Prop :=
  ∀ (s : State) (lx ly rx ry : Adc), s.phase = .render → ∃ t d, exec (.step lx ly rx ry) s = .next t ∧
    t.out = { event := .none, tx := [], draw := some d, err := false } ∧ t.tx = s.tx ∧
    d.full = s.fullRedraw ∧ d.gaugeLocal = s.localPct ∧ d.gaugeRemote = s.remotePct ∧
    (∀ i : ButtonId,
      let lit := s.capture.capBtnValid = true ∧ s.capture.capBtnId = i ∧ InButton s.cfg i s.touch.x s.touch.y
      let marked := s.buttons[i].dirty = true ∨ ¬ (s.buttons[i].highlighted = true ↔ lit)
      (t.buttons[i].highlighted = true ↔ lit) ∧
      (d.btn[i] = true ↔ s.cfg.geom.buttons[i].pageId = 0 ∧ (marked ∨ s.fullRedraw = true)) ∧
      (t.buttons[i].dirty = true ↔ marked ∧ ¬ d.btn[i] = true)) ∧
    (∀ j : SliderId,
      (d.sld[j] = true ↔ s.cfg.geom.sliders[j].pageId = 0 ∧
        (s.sliders[j].value ≠ s.sliders[j].lastRenderedValue ∨ s.fullRedraw = true)) ∧
      t.sliders[j].lastRenderedValue =
        if d.sld[j] then s.sliders[j].value else s.sliders[j].lastRenderedValue) ∧
    t.fullRedraw = false ∧ t.phase = .dispatch ∧
    OnlyWrites ((List.finRange 13).map .highlighted ++ (List.finRange 13).map .dirty ++
      [.lastRendered 0, .lastRendered 1, .fullRedraw, .phase]) s t

/-- R223: a dirty flag is never cleared without its button appearing in a draw record. -/
def Obligations.DirtyClearedOnlyByADraw : Prop :=
  ∀ (i : Instr) (s t : State) (b : ButtonId), exec i s = .next t → s.buttons[b].dirty = true →
    t.buttons[b].dirty = false → ∃ d, t.out.draw = some d ∧ d.btn[b] = true

/-- Repeating RXSOC or BATT with the same operand, or NOP, changes nothing more, and a second render pass with
nothing in between draws only the gauges (R73, which the spec derives). -/
def Obligations.RepeatedOperationsAreIdempotent : Prop :=
  (∀ (byte : Byte) (s t : State), exec (.rxsoc byte) s = .next t → exec (.rxsoc byte) t = .next t) ∧
  (∀ (adc : Adc) (s t : State), exec (.batt adc) s = .next t → exec (.batt adc) t = .next t) ∧
  (∀ s t : State, exec .nop s = .next t → exec .nop t = .next t) ∧
  (∀ (lx ly rx ry : Adc) (s t : State), s.phase = .render → exec (.step lx ly rx ry) s = .next t →
    ∃ u d, exec (.step lx ly rx ry) (t.goTo .render) = .next u ∧ (∀ r : Reg, r.bits u = r.bits t) ∧
      u.out.draw = some d ∧ d.full = false ∧ (∀ i : ButtonId, d.btn[i] = false) ∧
      (∀ j : SliderId, d.sld[j] = false) ∧ d.gaugeLocal = s.localPct ∧ d.gaugeRemote = s.remotePct)

/-! The main loop (spec/46_main_loop_and_render.md). -/

/-- Every STEP moves the phase as R216 and R29 say, and no other operation moves it. -/
def Obligations.PhaseMovesOnlyByStep : Prop :=
  ∀ (i : Instr) (s t : State), exec i s = .next t →
    (isStep i = false → t.phase = s.phase) ∧
    (isStep i = true → s.phase = .dispatch → t.phase = .frame) ∧
    (isStep i = true → s.phase = .frame → 781 < s.tickAcc.toNat → t.phase = .frame) ∧
    (isStep i = true → s.phase = .frame → s.tickAcc.toNat ≤ 781 → t.phase = .render) ∧
    (isStep i = true → s.phase = .render → t.phase = .dispatch)

/-- LOOP (R102): from phase DISPATCH, 3 + f STEPs with f the frames due are one iteration of the main loop: it ends
in phase DISPATCH with exactly one draw record, and sends 7 bytes per frame due and at most one byte more. -/
def Obligations.LoopRunsOneIteration : Prop :=
  ∀ (s : State) (lx ly rx ry : Adc), s.phase = .dispatch →
    let f := (s.tickAcc.toNat - 1) / 781
    let ops : List Instr := List.replicate (3 + f) (.step lx ly rx ry)
    TraceOp.expand s (.loop lx ly rx ry) = ops ∧
    ∃ t, runOps ops s = .next t ∧ t.phase = .dispatch ∧ t.press.pressValid = false ∧ t.fullRedraw = false ∧
      (drawsOf ops s).length = 1 ∧ t.tickAcc.toNat ≤ 781 ∧
      ((bytesOf ops s).length = 7 * f ∨ (bytesOf ops s).length = 1 + 7 * f)

/-- R191: a press of pair k taken in a DISPATCH phase is in every frame of that iteration's FRAME phase, whatever
operations come in between: until a render pass ends the iteration, each frame's byte 1 has bit k as pressed. -/
def Obligations.FramesCarryTheirIterationsPress : Prop :=
  ∀ (s s₁ u t : State) (mid : List Instr) (k : Fin 8) (v : Bool) (lx ly rx ry lx' ly' rx' ry' : Adc), k.val < 5 →
    s.phase = .dispatch → s.press.pressValid = true → s.press.pressId.val = 2 * k.val + v.toNat →
    exec (.step lx ly rx ry) s = .next s₁ → runOps mid s₁ = .next u → drawsOf mid s₁ = [] →
    u.phase = .frame → 781 < u.tickAcc.toNat → exec (.step lx' ly' rx' ry') u = .next t →
    ∃ bytes bits, t.tx = u.tx ++ bytes ∧ bytes.length = 7 ∧ bytes[1]? = some bits ∧ bits.getLsbD k.val = v

/-! Output ports (spec/30_encoding.md). -/

/-- R90: the event codes and coordinates at the port; an operation other than POLL reports None; TapDown and
DragUpdate carry the sample's coordinate, TapUp the session coordinate. -/
def Obligations.EventPortCodes : Prop :=
  (∀ (s : State) (x y : U16),
    (s.out.event = .none → s.ports.evKind = 0 ∧ s.ports.evX = 0 ∧ s.ports.evY = 0) ∧
    (s.out.event = .tapDown x y → s.ports.evKind = 1 ∧ s.ports.evX = x ∧ s.ports.evY = y) ∧
    (s.out.event = .dragUpdate x y → s.ports.evKind = 2 ∧ s.ports.evX = x ∧ s.ports.evY = y) ∧
    (s.out.event = .tapUp x y → s.ports.evKind = 3 ∧ s.ports.evX = x ∧ s.ports.evY = y)) ∧
  (∀ (i : Instr) (s t : State), isPoll i = false → exec i s = .next t → t.out.event = .none) ∧
  (∀ (present : Bool) (sx sy : U16) (s t : State) (x y : U16), exec (.poll present sx sy) s = .next t →
    (t.out.event = .tapDown x y ∨ t.out.event = .dragUpdate x y) → x = sx ∧ y = sy) ∧
  (∀ (i : Instr) (s t : State) (x y : U16), exec i s = .next t → t.out.event = .tapUp x y →
    x = t.touch.x ∧ y = t.touch.y)

/-- R100: an operation appends no byte, one command byte in a DISPATCH phase, or a frame of seven in a FRAME phase,
and the transmit port shows exactly those bytes, byte k in bits [8k+7:8k]. -/
def Obligations.TransmitPortShowsTheBytes : Prop :=
  ∀ (i : Instr) (s t : State), exec i s = .next t →
    t.tx = s.tx ++ t.out.tx ∧
    ((t.out.tx = [] ∧ t.ports.txLen = 0 ∧ t.ports.txBytes = 0) ∨
     (isStepIn .dispatch i s = true ∧ t.ports.txLen = 1 ∧ 10 ≤ s.press.pressId.val ∧
      ∃ b ∈ [0x72#8, 0x67#8, 0x62#8], t.out.tx = [b] ∧ t.ports.txBytes.extractLsb' 0 8 = b) ∨
     (isStepIn .frame i s = true ∧ t.ports.txLen = 7 ∧ t.out.tx.length = 7 ∧
      ∀ k : Nat, k < 7 → t.out.tx[k]? = some (t.ports.txBytes.extractLsb' (8 * k) 8)))

/-- R99: the draw port shows the draw record bit by bit, a record is shown exactly by a STEP in phase RENDER, and
then with the value `fullRedraw` had and both estimates. -/
def Obligations.DrawPortShowsTheRecord : Prop :=
  (∀ (s : State) (d : DrawRecord), s.out.draw = some d → ∃ p, s.ports.draw = some p ∧ p.full = d.full ∧
    (∀ i : ButtonId, p.btn.getLsbD i.val = d.btn[i]) ∧ (∀ j : SliderId, p.sld.getLsbD j.val = d.sld[j]) ∧
    p.gaugeLocal = d.gaugeLocal ∧ p.gaugeRemote = d.gaugeRemote) ∧
  (∀ (i : Instr) (s t : State), exec i s = .next t → t.ports.drawValid = isStepIn .render i s ∧
    (isStepIn .render i s = true → ∃ p, t.ports.draw = some p ∧ p.full = s.fullRedraw ∧
      p.gaugeLocal = s.localPct ∧ p.gaugeRemote = s.remotePct))

/-! The whole machine (spec/10_state.md, spec/20_memory.md). -/

/-- R48: an operation that table R48 does not list for a register neither writes it nor reads it: unlisted
registers keep their value, and two states that agree on the listed ones give the same outputs and agree on them
again. -/
def Obligations.OperationsTouchOnlyListedRegisters : Prop :=
  (∀ (i : Instr) (s t : State), exec i s = .next t →
    t.cfg = s.cfg ∧ t.inputs = s.inputs ∧ ∀ r : Reg, r.writtenBy i s = false → r.bits t = r.bits s) ∧
  (∀ (i : Instr) (s₁ s₂ t₁ t₂ : State), s₁.cfg = s₂.cfg →
    (∀ r : Reg, r.listedFor i s₁ = true → r.bits s₁ = r.bits s₂) →
    exec i s₁ = .next t₁ → exec i s₂ = .next t₂ →
    t₁.out = t₂.out ∧ ∀ r : Reg, r.listedFor i s₁ = true → r.bits t₁ = r.bits t₂)

/-- The registers of table R50 are all of the block's state: with the configuration, the coming inputs, the output
ports and the stream they determine it (R49, R50); and every register fits its width. -/
def Obligations.RegistersDetermineTheState : Prop :=
  (∀ s t : State, s.cfg = t.cfg → s.inputs = t.inputs → s.out = t.out → s.tx = t.tx →
    (∀ r : Reg, r.bits s = r.bits t) → s = t) ∧
  (∀ (s : State) (r : Reg), r.bits s < 2 ^ r.width)

/-- The invariants R40, R41, R43, R44 and R46 hold after reset, with every configuration and whatever is presented
next. -/
def Obligations.InvariantsHoldAfterReset : Prop :=
  ∀ (cfg : Cfg) (inputs : List ClockInput), Inv { State.resetWith cfg with inputs := inputs }

/-- The invariants are kept by every clock edge, from every state that has them. -/
def Obligations.EveryStepKeepsTheInvariants : Prop :=
  ∀ s t : State, Inv s → step s = .next t → Inv t

/-- Every state of a run from reset has the invariants, and its next step goes on unless a reserved code is
presented. -/
def Obligations.ReachableStatesKeepTheInvariants : Prop :=
  ∀ s : State, Reachable s → Inv s ∧
    ((∃ t, step s = .next t ∧ Inv t) ∨ ∃ opc : OpCode, 6 ≤ opc.toNat ∧ step s = .refused (.reservedOpcode opc))

/-- Presenting a trace word by word at the operation port and clocking once per word gives the state that is the fold
of the operations over the trace (R66, R15). That the words stand in `inputs`, before what was waiting there and still
waits, is the model's choice (notes/assumptions/2.md). -/
def Obligations.ClockedTraceIsTheFold : Prop :=
  ∀ (ops : List Instr) (s : State), ∃ t, runOps ops s = .next t ∧ t.inputs = s.inputs ∧
    Host.Core.run Sys2Proof.core ops.length (s.present ops) = .next t

/-- R62: the stream is the history of the bytes the operations appended, in order, and each operation of a trace has
its own output record. -/
def Obligations.StreamIsTheHistoryOfAppends : Prop :=
  ∀ (ops : List Instr) (s t : State), runOps ops s = .next t →
    t.tx = s.tx ++ bytesOf ops s ∧ (outsOf ops s).length = ops.length
end

