-- ==== Sys2Proof/Laws/Decode.lean ====
section
/-! SUPPORT. Laws/Decode.lean: what the decoder reads from a word, said once. -/

namespace Sys2Proof

/-- The operation code is the word's top four bits, as a number (R80). -/
theorem opcodeOf_toNat (w : OpWord) : (opcodeOf w).toNat = w.toNat / 2 ^ 44 := by
  have := w.isLt
  simp only [opcodeOf, BitVec.extractLsb'_toNat, Nat.shiftRight_eq_div_pow]
  omega

/-- Everything the decoder can answer (R81 to R88), with the operation code of each case. -/
theorem decode_cases (w : OpWord) :
    (opcodeOf w = 0 ∧ decode w = .ok .nop) ∨
    (opcodeOf w = 1 ∧ decode w = .ok .tick) ∨
    (opcodeOf w = 2 ∧ decode w = .ok (.poll (w.getLsbD 32) (w.extractLsb' 16 16) (w.extractLsb' 0 16))) ∨
    (opcodeOf w = 3 ∧ decode w = .ok (.rxsoc (w.extractLsb' 0 8))) ∨
    (opcodeOf w = 4 ∧ decode w = .ok (.batt (w.extractLsb' 0 10))) ∨
    (opcodeOf w = 5 ∧ decode w =
      .ok (.step (w.extractLsb' 0 10) (w.extractLsb' 10 10) (w.extractLsb' 20 10) (w.extractLsb' 30 10))) ∨
    (6 ≤ (opcodeOf w).toNat ∧ decode w = .error (.reserved (opcodeOf w))) := by
  generalize code : opcodeOf w = o
  unfold decode
  rw [code]
  have named : ∀ n < 16, o.toNat = n → o = BitVec.ofNat 4 n := fun n small e =>
    BitVec.eq_of_toNat_eq (by simp only [BitVec.toNat_ofNat]; omega)
  rcases (by omega : o.toNat = 0 ∨ o.toNat = 1 ∨ o.toNat = 2 ∨ o.toNat = 3 ∨ o.toNat = 4 ∨ o.toNat = 5 ∨
    6 ≤ o.toNat) with h | h | h | h | h | h | h
  iterate 6
    · rw [named _ (by omega) h]; simp
  · iterate 6 right
    refine ⟨h, ?_⟩
    split <;> first | omega | rfl

end Sys2Proof
end

