-- ==== Sys2Proof/Laws/State.lean ====
section
/-! SUPPORT. Laws/State.lean: one lemma per field of every named update of the state, true by rfl, and the fields
of the output records. -/

namespace Sys2Proof.Machine

/-! The fields after `State.idle`. -/

@[simp] theorem State.idle_cfg (s : State) : s.idle.cfg = s.cfg := rfl
@[simp] theorem State.idle_inputs (s : State) : s.idle.inputs = s.inputs := rfl
@[simp] theorem State.idle_touch (s : State) : s.idle.touch = s.touch := rfl
@[simp] theorem State.idle_capture (s : State) : s.idle.capture = s.capture := rfl
@[simp] theorem State.idle_press (s : State) : s.idle.press = s.press := rfl
@[simp] theorem State.idle_controlBits (s : State) : s.idle.controlBits = s.controlBits := rfl
@[simp] theorem State.idle_tickAcc (s : State) : s.idle.tickAcc = s.tickAcc := rfl
@[simp] theorem State.idle_phase (s : State) : s.idle.phase = s.phase := rfl
@[simp] theorem State.idle_fullRedraw (s : State) : s.idle.fullRedraw = s.fullRedraw := rfl
@[simp] theorem State.idle_localPct (s : State) : s.idle.localPct = s.localPct := rfl
@[simp] theorem State.idle_remotePct (s : State) : s.idle.remotePct = s.remotePct := rfl
@[simp] theorem State.idle_buttons (s : State) : s.idle.buttons = s.buttons := rfl
@[simp] theorem State.idle_sliders (s : State) : s.idle.sliders = s.sliders := rfl
@[simp] theorem State.idle_out (s : State) : s.idle.out = Outputs.idle := rfl
@[simp] theorem State.idle_tx (s : State) : s.idle.tx = s.tx := rfl

/-! The fields after `State.report`. -/

@[simp] theorem State.report_cfg (e : TouchEvent) (s : State) : (s.report e).cfg = s.cfg := rfl
@[simp] theorem State.report_inputs (e : TouchEvent) (s : State) : (s.report e).inputs = s.inputs := rfl
@[simp] theorem State.report_touch (e : TouchEvent) (s : State) : (s.report e).touch = s.touch := rfl
@[simp] theorem State.report_capture (e : TouchEvent) (s : State) : (s.report e).capture = s.capture := rfl
@[simp] theorem State.report_press (e : TouchEvent) (s : State) : (s.report e).press = s.press := rfl
@[simp] theorem State.report_controlBits (e : TouchEvent) (s : State) :
    (s.report e).controlBits = s.controlBits := rfl
@[simp] theorem State.report_tickAcc (e : TouchEvent) (s : State) : (s.report e).tickAcc = s.tickAcc := rfl
@[simp] theorem State.report_phase (e : TouchEvent) (s : State) : (s.report e).phase = s.phase := rfl
@[simp] theorem State.report_fullRedraw (e : TouchEvent) (s : State) : (s.report e).fullRedraw = s.fullRedraw := rfl
@[simp] theorem State.report_localPct (e : TouchEvent) (s : State) : (s.report e).localPct = s.localPct := rfl
@[simp] theorem State.report_remotePct (e : TouchEvent) (s : State) : (s.report e).remotePct = s.remotePct := rfl
@[simp] theorem State.report_buttons (e : TouchEvent) (s : State) : (s.report e).buttons = s.buttons := rfl
@[simp] theorem State.report_sliders (e : TouchEvent) (s : State) : (s.report e).sliders = s.sliders := rfl
@[simp] theorem State.report_out (e : TouchEvent) (s : State) : (s.report e).out = { s.out with event := e } := rfl
@[simp] theorem State.report_tx (e : TouchEvent) (s : State) : (s.report e).tx = s.tx := rfl

/-! The fields after `State.showDraw`. -/

@[simp] theorem State.showDraw_cfg (d : DrawRecord) (s : State) : (s.showDraw d).cfg = s.cfg := rfl
@[simp] theorem State.showDraw_inputs (d : DrawRecord) (s : State) : (s.showDraw d).inputs = s.inputs := rfl
@[simp] theorem State.showDraw_touch (d : DrawRecord) (s : State) : (s.showDraw d).touch = s.touch := rfl
@[simp] theorem State.showDraw_capture (d : DrawRecord) (s : State) : (s.showDraw d).capture = s.capture := rfl
@[simp] theorem State.showDraw_press (d : DrawRecord) (s : State) : (s.showDraw d).press = s.press := rfl
@[simp] theorem State.showDraw_controlBits (d : DrawRecord) (s : State) :
    (s.showDraw d).controlBits = s.controlBits := rfl
@[simp] theorem State.showDraw_tickAcc (d : DrawRecord) (s : State) : (s.showDraw d).tickAcc = s.tickAcc := rfl
@[simp] theorem State.showDraw_phase (d : DrawRecord) (s : State) : (s.showDraw d).phase = s.phase := rfl
@[simp] theorem State.showDraw_fullRedraw (d : DrawRecord) (s : State) :
    (s.showDraw d).fullRedraw = s.fullRedraw := rfl
@[simp] theorem State.showDraw_localPct (d : DrawRecord) (s : State) : (s.showDraw d).localPct = s.localPct := rfl
@[simp] theorem State.showDraw_remotePct (d : DrawRecord) (s : State) : (s.showDraw d).remotePct = s.remotePct := rfl
@[simp] theorem State.showDraw_buttons (d : DrawRecord) (s : State) : (s.showDraw d).buttons = s.buttons := rfl
@[simp] theorem State.showDraw_sliders (d : DrawRecord) (s : State) : (s.showDraw d).sliders = s.sliders := rfl
@[simp] theorem State.showDraw_out (d : DrawRecord) (s : State) :
    (s.showDraw d).out = { s.out with draw := some d } := rfl
@[simp] theorem State.showDraw_tx (d : DrawRecord) (s : State) : (s.showDraw d).tx = s.tx := rfl

/-! The fields after `State.txAppend`. -/

@[simp] theorem State.txAppend_cfg (b : List Byte) (s : State) : (s.txAppend b).cfg = s.cfg := rfl
@[simp] theorem State.txAppend_inputs (b : List Byte) (s : State) : (s.txAppend b).inputs = s.inputs := rfl
@[simp] theorem State.txAppend_touch (b : List Byte) (s : State) : (s.txAppend b).touch = s.touch := rfl
@[simp] theorem State.txAppend_capture (b : List Byte) (s : State) : (s.txAppend b).capture = s.capture := rfl
@[simp] theorem State.txAppend_press (b : List Byte) (s : State) : (s.txAppend b).press = s.press := rfl
@[simp] theorem State.txAppend_controlBits (b : List Byte) (s : State) :
    (s.txAppend b).controlBits = s.controlBits := rfl
@[simp] theorem State.txAppend_tickAcc (b : List Byte) (s : State) : (s.txAppend b).tickAcc = s.tickAcc := rfl
@[simp] theorem State.txAppend_phase (b : List Byte) (s : State) : (s.txAppend b).phase = s.phase := rfl
@[simp] theorem State.txAppend_fullRedraw (b : List Byte) (s : State) :
    (s.txAppend b).fullRedraw = s.fullRedraw := rfl
@[simp] theorem State.txAppend_localPct (b : List Byte) (s : State) : (s.txAppend b).localPct = s.localPct := rfl
@[simp] theorem State.txAppend_remotePct (b : List Byte) (s : State) : (s.txAppend b).remotePct = s.remotePct := rfl
@[simp] theorem State.txAppend_buttons (b : List Byte) (s : State) : (s.txAppend b).buttons = s.buttons := rfl
@[simp] theorem State.txAppend_sliders (b : List Byte) (s : State) : (s.txAppend b).sliders = s.sliders := rfl
@[simp] theorem State.txAppend_out (b : List Byte) (s : State) :
    (s.txAppend b).out = { s.out with tx := s.out.tx ++ b } := rfl
@[simp] theorem State.txAppend_tx (b : List Byte) (s : State) : (s.txAppend b).tx = s.tx ++ b := rfl

/-! The fields after `State.goTo`. -/

@[simp] theorem State.goTo_cfg (p : Phase) (s : State) : (s.goTo p).cfg = s.cfg := rfl
@[simp] theorem State.goTo_inputs (p : Phase) (s : State) : (s.goTo p).inputs = s.inputs := rfl
@[simp] theorem State.goTo_touch (p : Phase) (s : State) : (s.goTo p).touch = s.touch := rfl
@[simp] theorem State.goTo_capture (p : Phase) (s : State) : (s.goTo p).capture = s.capture := rfl
@[simp] theorem State.goTo_press (p : Phase) (s : State) : (s.goTo p).press = s.press := rfl
@[simp] theorem State.goTo_controlBits (p : Phase) (s : State) : (s.goTo p).controlBits = s.controlBits := rfl
@[simp] theorem State.goTo_tickAcc (p : Phase) (s : State) : (s.goTo p).tickAcc = s.tickAcc := rfl
@[simp] theorem State.goTo_phase (p : Phase) (s : State) : (s.goTo p).phase = p := rfl
@[simp] theorem State.goTo_fullRedraw (p : Phase) (s : State) : (s.goTo p).fullRedraw = s.fullRedraw := rfl
@[simp] theorem State.goTo_localPct (p : Phase) (s : State) : (s.goTo p).localPct = s.localPct := rfl
@[simp] theorem State.goTo_remotePct (p : Phase) (s : State) : (s.goTo p).remotePct = s.remotePct := rfl
@[simp] theorem State.goTo_buttons (p : Phase) (s : State) : (s.goTo p).buttons = s.buttons := rfl
@[simp] theorem State.goTo_sliders (p : Phase) (s : State) : (s.goTo p).sliders = s.sliders := rfl
@[simp] theorem State.goTo_out (p : Phase) (s : State) : (s.goTo p).out = s.out := rfl
@[simp] theorem State.goTo_tx (p : Phase) (s : State) : (s.goTo p).tx = s.tx := rfl

/-! The fields after `State.mapButtons`. -/

@[simp] theorem State.mapButtons_cfg (f : ButtonId → Button → Button) (s : State) :
    (s.mapButtons f).cfg = s.cfg := rfl
@[simp] theorem State.mapButtons_inputs (f : ButtonId → Button → Button) (s : State) :
    (s.mapButtons f).inputs = s.inputs := rfl
@[simp] theorem State.mapButtons_touch (f : ButtonId → Button → Button) (s : State) :
    (s.mapButtons f).touch = s.touch := rfl
@[simp] theorem State.mapButtons_capture (f : ButtonId → Button → Button) (s : State) :
    (s.mapButtons f).capture = s.capture := rfl
@[simp] theorem State.mapButtons_press (f : ButtonId → Button → Button) (s : State) :
    (s.mapButtons f).press = s.press := rfl
@[simp] theorem State.mapButtons_controlBits (f : ButtonId → Button → Button) (s : State) :
    (s.mapButtons f).controlBits = s.controlBits := rfl
@[simp] theorem State.mapButtons_tickAcc (f : ButtonId → Button → Button) (s : State) :
    (s.mapButtons f).tickAcc = s.tickAcc := rfl
@[simp] theorem State.mapButtons_phase (f : ButtonId → Button → Button) (s : State) :
    (s.mapButtons f).phase = s.phase := rfl
@[simp] theorem State.mapButtons_fullRedraw (f : ButtonId → Button → Button) (s : State) :
    (s.mapButtons f).fullRedraw = s.fullRedraw := rfl
@[simp] theorem State.mapButtons_localPct (f : ButtonId → Button → Button) (s : State) :
    (s.mapButtons f).localPct = s.localPct := rfl
@[simp] theorem State.mapButtons_remotePct (f : ButtonId → Button → Button) (s : State) :
    (s.mapButtons f).remotePct = s.remotePct := rfl
@[simp] theorem State.mapButtons_buttons (f : ButtonId → Button → Button) (s : State) :
    (s.mapButtons f).buttons = Vector.ofFn fun i => f i s.buttons[i] := rfl
@[simp] theorem State.mapButtons_sliders (f : ButtonId → Button → Button) (s : State) :
    (s.mapButtons f).sliders = s.sliders := rfl
@[simp] theorem State.mapButtons_out (f : ButtonId → Button → Button) (s : State) :
    (s.mapButtons f).out = s.out := rfl
@[simp] theorem State.mapButtons_tx (f : ButtonId → Button → Button) (s : State) : (s.mapButtons f).tx = s.tx := rfl

/-! The fields after `State.mapSliders`. -/

@[simp] theorem State.mapSliders_cfg (f : SliderId → Slider → Slider) (s : State) :
    (s.mapSliders f).cfg = s.cfg := rfl
@[simp] theorem State.mapSliders_inputs (f : SliderId → Slider → Slider) (s : State) :
    (s.mapSliders f).inputs = s.inputs := rfl
@[simp] theorem State.mapSliders_touch (f : SliderId → Slider → Slider) (s : State) :
    (s.mapSliders f).touch = s.touch := rfl
@[simp] theorem State.mapSliders_capture (f : SliderId → Slider → Slider) (s : State) :
    (s.mapSliders f).capture = s.capture := rfl
@[simp] theorem State.mapSliders_press (f : SliderId → Slider → Slider) (s : State) :
    (s.mapSliders f).press = s.press := rfl
@[simp] theorem State.mapSliders_controlBits (f : SliderId → Slider → Slider) (s : State) :
    (s.mapSliders f).controlBits = s.controlBits := rfl
@[simp] theorem State.mapSliders_tickAcc (f : SliderId → Slider → Slider) (s : State) :
    (s.mapSliders f).tickAcc = s.tickAcc := rfl
@[simp] theorem State.mapSliders_phase (f : SliderId → Slider → Slider) (s : State) :
    (s.mapSliders f).phase = s.phase := rfl
@[simp] theorem State.mapSliders_fullRedraw (f : SliderId → Slider → Slider) (s : State) :
    (s.mapSliders f).fullRedraw = s.fullRedraw := rfl
@[simp] theorem State.mapSliders_localPct (f : SliderId → Slider → Slider) (s : State) :
    (s.mapSliders f).localPct = s.localPct := rfl
@[simp] theorem State.mapSliders_remotePct (f : SliderId → Slider → Slider) (s : State) :
    (s.mapSliders f).remotePct = s.remotePct := rfl
@[simp] theorem State.mapSliders_buttons (f : SliderId → Slider → Slider) (s : State) :
    (s.mapSliders f).buttons = s.buttons := rfl
@[simp] theorem State.mapSliders_sliders (f : SliderId → Slider → Slider) (s : State) :
    (s.mapSliders f).sliders = Vector.ofFn fun j => f j s.sliders[j] := rfl
@[simp] theorem State.mapSliders_out (f : SliderId → Slider → Slider) (s : State) :
    (s.mapSliders f).out = s.out := rfl
@[simp] theorem State.mapSliders_tx (f : SliderId → Slider → Slider) (s : State) : (s.mapSliders f).tx = s.tx := rfl

/-! The fields after `onTapDown`. -/

@[simp] theorem onTapDown_cfg (px py : U16) (s : State) : (onTapDown px py s).cfg = s.cfg := rfl
@[simp] theorem onTapDown_inputs (px py : U16) (s : State) : (onTapDown px py s).inputs = s.inputs := rfl
@[simp] theorem onTapDown_touch (px py : U16) (s : State) : (onTapDown px py s).touch = s.touch := rfl
@[simp] theorem onTapDown_capture (px py : U16) (s : State) :
    (onTapDown px py s).capture = captureAt s.cfg px py := rfl
@[simp] theorem onTapDown_press (px py : U16) (s : State) : (onTapDown px py s).press = s.press := rfl
@[simp] theorem onTapDown_controlBits (px py : U16) (s : State) :
    (onTapDown px py s).controlBits = s.controlBits := rfl
@[simp] theorem onTapDown_tickAcc (px py : U16) (s : State) : (onTapDown px py s).tickAcc = s.tickAcc := rfl
@[simp] theorem onTapDown_phase (px py : U16) (s : State) : (onTapDown px py s).phase = s.phase := rfl
@[simp] theorem onTapDown_fullRedraw (px py : U16) (s : State) : (onTapDown px py s).fullRedraw = s.fullRedraw := rfl
@[simp] theorem onTapDown_localPct (px py : U16) (s : State) : (onTapDown px py s).localPct = s.localPct := rfl
@[simp] theorem onTapDown_remotePct (px py : U16) (s : State) : (onTapDown px py s).remotePct = s.remotePct := rfl
@[simp] theorem onTapDown_buttons (px py : U16) (s : State) : (onTapDown px py s).buttons = s.buttons := rfl
@[simp] theorem onTapDown_sliders (px py : U16) (s : State) : (onTapDown px py s).sliders = s.sliders := rfl
@[simp] theorem onTapDown_out (px py : U16) (s : State) : (onTapDown px py s).out = s.out := rfl
@[simp] theorem onTapDown_tx (px py : U16) (s : State) : (onTapDown px py s).tx = s.tx := rfl

/-! The fields after `onDragUpdate`. -/

@[simp] theorem onDragUpdate_cfg (px py : U16) (s : State) : (onDragUpdate px py s).cfg = s.cfg := rfl
@[simp] theorem onDragUpdate_inputs (px py : U16) (s : State) : (onDragUpdate px py s).inputs = s.inputs := rfl
@[simp] theorem onDragUpdate_touch (px py : U16) (s : State) : (onDragUpdate px py s).touch = s.touch := rfl
@[simp] theorem onDragUpdate_capture (px py : U16) (s : State) : (onDragUpdate px py s).capture = s.capture := rfl
@[simp] theorem onDragUpdate_press (px py : U16) (s : State) : (onDragUpdate px py s).press = s.press := rfl
@[simp] theorem onDragUpdate_controlBits (px py : U16) (s : State) :
    (onDragUpdate px py s).controlBits = s.controlBits := rfl
@[simp] theorem onDragUpdate_tickAcc (px py : U16) (s : State) : (onDragUpdate px py s).tickAcc = s.tickAcc := rfl
@[simp] theorem onDragUpdate_phase (px py : U16) (s : State) : (onDragUpdate px py s).phase = s.phase := rfl
@[simp] theorem onDragUpdate_fullRedraw (px py : U16) (s : State) :
    (onDragUpdate px py s).fullRedraw = s.fullRedraw := rfl
@[simp] theorem onDragUpdate_localPct (px py : U16) (s : State) : (onDragUpdate px py s).localPct = s.localPct := rfl
@[simp] theorem onDragUpdate_remotePct (px py : U16) (s : State) :
    (onDragUpdate px py s).remotePct = s.remotePct := rfl
@[simp] theorem onDragUpdate_buttons (px py : U16) (s : State) : (onDragUpdate px py s).buttons = s.buttons := rfl
@[simp] theorem onDragUpdate_out (px py : U16) (s : State) : (onDragUpdate px py s).out = s.out := rfl
@[simp] theorem onDragUpdate_tx (px py : U16) (s : State) : (onDragUpdate px py s).tx = s.tx := rfl

/-! The fields after `onTapUp`. -/

@[simp] theorem onTapUp_cfg (s : State) : (onTapUp s).cfg = s.cfg := rfl
@[simp] theorem onTapUp_inputs (s : State) : (onTapUp s).inputs = s.inputs := rfl
@[simp] theorem onTapUp_touch (s : State) : (onTapUp s).touch = s.touch := rfl
@[simp] theorem onTapUp_capture (s : State) : (onTapUp s).capture = Capture.nothing := rfl
@[simp] theorem onTapUp_press (s : State) :
    (onTapUp s).press = if pressAccepted s then { pressValid := true, pressId := s.capture.capBtnId } else s.press := rfl
@[simp] theorem onTapUp_controlBits (s : State) : (onTapUp s).controlBits = s.controlBits := rfl
@[simp] theorem onTapUp_tickAcc (s : State) : (onTapUp s).tickAcc = s.tickAcc := rfl
@[simp] theorem onTapUp_phase (s : State) : (onTapUp s).phase = s.phase := rfl
@[simp] theorem onTapUp_fullRedraw (s : State) : (onTapUp s).fullRedraw = s.fullRedraw := rfl
@[simp] theorem onTapUp_localPct (s : State) : (onTapUp s).localPct = s.localPct := rfl
@[simp] theorem onTapUp_remotePct (s : State) : (onTapUp s).remotePct = s.remotePct := rfl
@[simp] theorem onTapUp_buttons (s : State) : (onTapUp s).buttons = s.buttons := rfl
@[simp] theorem onTapUp_sliders (s : State) : (onTapUp s).sliders = s.sliders := rfl
@[simp] theorem onTapUp_out (s : State) : (onTapUp s).out = s.out := rfl
@[simp] theorem onTapUp_tx (s : State) : (onTapUp s).tx = s.tx := rfl

/-! The fields after `takePress`. -/

@[simp] theorem takePress_cfg (s : State) : (takePress s).cfg = s.cfg := rfl
@[simp] theorem takePress_inputs (s : State) : (takePress s).inputs = s.inputs := rfl
@[simp] theorem takePress_touch (s : State) : (takePress s).touch = s.touch := rfl
@[simp] theorem takePress_capture (s : State) : (takePress s).capture = s.capture := rfl
@[simp] theorem takePress_press (s : State) : (takePress s).press = PressMailbox.empty := rfl
@[simp] theorem takePress_controlBits (s : State) :
    (takePress s).controlBits = applyBit dispatchTable[s.press.pressId].bit s.controlBits := rfl
@[simp] theorem takePress_tickAcc (s : State) : (takePress s).tickAcc = s.tickAcc := rfl
@[simp] theorem takePress_phase (s : State) : (takePress s).phase = s.phase := rfl
@[simp] theorem takePress_fullRedraw (s : State) : (takePress s).fullRedraw = s.fullRedraw := rfl
@[simp] theorem takePress_localPct (s : State) : (takePress s).localPct = s.localPct := rfl
@[simp] theorem takePress_remotePct (s : State) : (takePress s).remotePct = s.remotePct := rfl
@[simp] theorem takePress_sliders (s : State) : (takePress s).sliders = s.sliders := rfl
@[simp] theorem takePress_out (s : State) :
    (takePress s).out = { s.out with tx := s.out.tx ++ dispatchTable[s.press.pressId].command.toList } := rfl
@[simp] theorem takePress_tx (s : State) :
    (takePress s).tx = s.tx ++ dispatchTable[s.press.pressId].command.toList := rfl

/-! The fields after `refreshHighlight`. -/

@[simp] theorem refreshHighlight_cfg (s : State) : (refreshHighlight s).cfg = s.cfg := rfl
@[simp] theorem refreshHighlight_inputs (s : State) : (refreshHighlight s).inputs = s.inputs := rfl
@[simp] theorem refreshHighlight_touch (s : State) : (refreshHighlight s).touch = s.touch := rfl
@[simp] theorem refreshHighlight_capture (s : State) : (refreshHighlight s).capture = s.capture := rfl
@[simp] theorem refreshHighlight_press (s : State) : (refreshHighlight s).press = s.press := rfl
@[simp] theorem refreshHighlight_controlBits (s : State) : (refreshHighlight s).controlBits = s.controlBits := rfl
@[simp] theorem refreshHighlight_tickAcc (s : State) : (refreshHighlight s).tickAcc = s.tickAcc := rfl
@[simp] theorem refreshHighlight_phase (s : State) : (refreshHighlight s).phase = s.phase := rfl
@[simp] theorem refreshHighlight_fullRedraw (s : State) : (refreshHighlight s).fullRedraw = s.fullRedraw := rfl
@[simp] theorem refreshHighlight_localPct (s : State) : (refreshHighlight s).localPct = s.localPct := rfl
@[simp] theorem refreshHighlight_remotePct (s : State) : (refreshHighlight s).remotePct = s.remotePct := rfl
@[simp] theorem refreshHighlight_sliders (s : State) : (refreshHighlight s).sliders = s.sliders := rfl
@[simp] theorem refreshHighlight_out (s : State) : (refreshHighlight s).out = s.out := rfl
@[simp] theorem refreshHighlight_tx (s : State) : (refreshHighlight s).tx = s.tx := rfl

/-! The fields after `clearDrawn`. -/

@[simp] theorem clearDrawn_cfg (s : State) : (clearDrawn s).cfg = s.cfg := rfl
@[simp] theorem clearDrawn_inputs (s : State) : (clearDrawn s).inputs = s.inputs := rfl
@[simp] theorem clearDrawn_touch (s : State) : (clearDrawn s).touch = s.touch := rfl
@[simp] theorem clearDrawn_capture (s : State) : (clearDrawn s).capture = s.capture := rfl
@[simp] theorem clearDrawn_press (s : State) : (clearDrawn s).press = s.press := rfl
@[simp] theorem clearDrawn_controlBits (s : State) : (clearDrawn s).controlBits = s.controlBits := rfl
@[simp] theorem clearDrawn_tickAcc (s : State) : (clearDrawn s).tickAcc = s.tickAcc := rfl
@[simp] theorem clearDrawn_phase (s : State) : (clearDrawn s).phase = s.phase := rfl
@[simp] theorem clearDrawn_fullRedraw (s : State) : (clearDrawn s).fullRedraw = s.fullRedraw := rfl
@[simp] theorem clearDrawn_localPct (s : State) : (clearDrawn s).localPct = s.localPct := rfl
@[simp] theorem clearDrawn_remotePct (s : State) : (clearDrawn s).remotePct = s.remotePct := rfl
@[simp] theorem clearDrawn_out (s : State) : (clearDrawn s).out = s.out := rfl
@[simp] theorem clearDrawn_tx (s : State) : (clearDrawn s).tx = s.tx := rfl

/-! The idle outputs. -/

@[simp] theorem Outputs.idle_event : Outputs.idle.event = .none := rfl
@[simp] theorem Outputs.idle_tx : Outputs.idle.tx = [] := rfl
@[simp] theorem Outputs.idle_draw : Outputs.idle.draw = none := rfl
@[simp] theorem Outputs.idle_err : Outputs.idle.err = false := rfl

/-! The fields after `renderPhase`. -/

@[simp] theorem renderPhase_cfg (s : State) : (renderPhase s).cfg = s.cfg := by simp [renderPhase]
@[simp] theorem renderPhase_inputs (s : State) : (renderPhase s).inputs = s.inputs := by simp [renderPhase]
@[simp] theorem renderPhase_touch (s : State) : (renderPhase s).touch = s.touch := by simp [renderPhase]
@[simp] theorem renderPhase_capture (s : State) : (renderPhase s).capture = s.capture := by simp [renderPhase]
@[simp] theorem renderPhase_press (s : State) : (renderPhase s).press = s.press := by simp [renderPhase]
@[simp] theorem renderPhase_controlBits (s : State) : (renderPhase s).controlBits = s.controlBits := by simp [renderPhase]
@[simp] theorem renderPhase_tickAcc (s : State) : (renderPhase s).tickAcc = s.tickAcc := by simp [renderPhase]
@[simp] theorem renderPhase_localPct (s : State) : (renderPhase s).localPct = s.localPct := by simp [renderPhase]
@[simp] theorem renderPhase_remotePct (s : State) : (renderPhase s).remotePct = s.remotePct := by simp [renderPhase]
@[simp] theorem renderPhase_tx (s : State) : (renderPhase s).tx = s.tx := by simp [renderPhase]
@[simp] theorem renderPhase_phase (s : State) : (renderPhase s).phase = .dispatch := rfl
@[simp] theorem renderPhase_fullRedraw (s : State) : (renderPhase s).fullRedraw = false := rfl
@[simp] theorem renderPhase_buttons (s : State) :
    (renderPhase s).buttons = (clearDrawn (refreshHighlight s)).buttons := by simp [renderPhase]
@[simp] theorem renderPhase_sliders (s : State) :
    (renderPhase s).sliders = (clearDrawn (refreshHighlight s)).sliders := by simp [renderPhase]
@[simp] theorem renderPhase_out (s : State) :
    (renderPhase s).out = { s.out with draw := some (drawRecord (refreshHighlight s)) } := by simp [renderPhase]

/-! The draw record of a pass. -/

@[simp] theorem drawRecord_full (s : State) : (drawRecord s).full = s.fullRedraw := rfl
@[simp] theorem drawRecord_btn (s : State) (i : ButtonId) : (drawRecord s).btn[i] = drawsButton s i := by
  simp [drawRecord]
@[simp] theorem drawRecord_sld (s : State) (j : SliderId) : (drawRecord s).sld[j] = drawsSlider s j := by
  simp [drawRecord]
@[simp] theorem drawRecord_gaugeLocal (s : State) : (drawRecord s).gaugeLocal = s.localPct := rfl
@[simp] theorem drawRecord_gaugeRemote (s : State) : (drawRecord s).gaugeRemote = s.remotePct := rfl

end Sys2Proof.Machine
end

