-- ==== Sys2Proof/Laws/Ops.lean ====
section
/-! SUPPORT. Laws/Ops.lean: one lemma for each shared operation that says what it computes. -/

namespace Sys2Proof.Machine

theorem satInc16_toNat (n : U16) : (satInc16 n).toNat = min 65535 (n.toNat + 1) := by
  have := n.isLt
  simp only [satInc16, BitVec.toNat_ofNat]
  omega

theorem wrapInc16_toNat (n : U16) : (wrapInc16 n).toNat = (n.toNat + 1) % 65536 := by
  simp [wrapInc16]

theorem joystickByte_toNat (v : Adc) : (joystickByte v).toNat = v.toNat / 4 := by
  have := v.isLt
  simp only [joystickByte, Config.joyShift, BitVec.toNat_ofNat, Nat.shiftRight_eq_div_pow]
  omega

theorem localPercent_bounds (adc : Adc) : -333 ≤ localPercent adc ∧ localPercent adc ≤ 348 := by
  have := adc.isLt
  simp only [localPercent, Config.battOffset, Config.battMul, Config.battDiv]
  rcases le_total 0 (((adc.toNat : Int) - 500) * 2) with h | h
  · rw [Int.tdiv_eq_ediv_of_nonneg h]
    omega
  · have e : (((adc.toNat : Int) - 500) * 2).tdiv 3 = -((-(((adc.toNat : Int) - 500) * 2)) / 3) := by
      rw [← Int.tdiv_eq_ediv_of_nonneg (by omega), Int.neg_tdiv, neg_neg]
    rw [e]
    omega

/-- A folded estimate holds exactly the monotone rule's value (R200): nothing is lost to the 16 bits. -/
theorem foldEstimate_toInt (e : Percent) (v : Int) (low : -32768 ≤ v) :
    (foldEstimate e v).toInt = if v < e.toInt then v else e.toInt := by
  have hi := BitVec.toInt_lt (x := e)
  have lo := BitVec.le_toInt (x := e)
  simp only [foldEstimate, monotone, BitVec.toInt_ofInt]
  split
  · exact Int.bmod_eq_of_le (by omega) (by omega)
  · exact Int.bmod_eq_of_le (by omega) (by omega)

theorem foldEstimate_le (e : Percent) (v : Int) (low : -32768 ≤ v) : (foldEstimate e v).toInt ≤ e.toInt := by
  rw [foldEstimate_toInt e v low]
  split <;> omega

theorem writeBit_getLsbD (b : Byte) (k : Fin 8) (v : Bool) (m : Fin 8) :
    (writeBit b k.val v).getLsbD m.val = if m = k then v else b.getLsbD m.val := by
  cases v <;> revert b <;> revert k m <;> simp only [writeBit] <;> intro k m b
  all_goals
    have hb : ∀ b : Byte, b.getLsbD m.val = b[m.val]'m.isLt := fun b => by simp
    rcases eq_or_ne m k with h | h
    · subst h; simp
    · have : m.val ≠ k.val := fun e => h (Fin.ext e)
      by_cases l : m.val < k.val
      · simp [h, l]
      · have : m.val - k.val ≠ 0 := by omega
        simp [h, l, this]

/-- R131 as the spec writes it. -/
theorem insideButton_iff (cfg : Cfg) (i : ButtonId) (px py : U16) :
    insideButton cfg i px py = true ↔ InButton cfg i px py := by
  simp [insideButton, insideBox, InButton, InBox, and_assoc]

/-- R132 as the spec writes it. -/
theorem insideSlider_iff (cfg : Cfg) (j : SliderId) (px py : U16) :
    insideSlider cfg j px py = true ↔ InSlider cfg j px py := by
  simp [insideSlider, insideBox, InSlider, InBox, and_assoc]

/-- A loop that overwrites keeps the last match. -/
theorem foldl_overwrite {α : Type} (p : α → Bool) (l : List α) (start : Option α) :
    l.foldl (fun found i => if p i then some i else found) start = ((l.filter p).getLast?).or start := by
  induction l generalizing start with
  | nil => simp
  | cons a l ih =>
    rw [List.foldl_cons, ih]
    cases h : p a
    · simp [h]
    · cases e : (l.filter p).getLast? <;> simp [h, List.getLast?_cons, e]

/-- R133, R134: the captured button is the matching one of highest id. -/
theorem hitButton_some {cfg : Cfg} {px py : U16} {i : ButtonId} (h : hitButton cfg px py = some i) :
    insideButton cfg i px py = true ∧ ∀ k, insideButton cfg k px py = true → k ≤ i := by
  rw [hitButton, foldl_overwrite, Option.or_none] at h
  have sorted : ((List.finRange Config.nb).filter fun i => insideButton cfg i px py).Pairwise (· < ·) :=
    List.Pairwise.filter _ (by decide)
  obtain ⟨front, e⟩ := List.getLast?_eq_some_iff.1 h
  refine ⟨?_, fun k hk => ?_⟩
  · have : i ∈ (List.finRange Config.nb).filter fun i => insideButton cfg i px py := by rw [e]; simp
    exact (List.mem_filter.1 this).2
  · have mem : k ∈ (List.finRange Config.nb).filter fun i => insideButton cfg i px py :=
      List.mem_filter.2 ⟨List.mem_finRange k, hk⟩
    rw [e] at mem sorted
    rcases List.mem_append.1 mem with m | m
    · exact le_of_lt ((List.pairwise_append.1 sorted).2.2 k m i (by simp))
    · simp at m; exact le_of_eq m

/-- R135: with no button hit, nothing is captured. -/
theorem hitButton_none {cfg : Cfg} {px py : U16} (h : hitButton cfg px py = none) (k : ButtonId) :
    insideButton cfg k px py = false := by
  rw [hitButton, foldl_overwrite, Option.or_none, List.getLast?_eq_none_iff] at h
  by_contra hk
  have : k ∈ (List.finRange Config.nb).filter fun i => insideButton cfg i px py :=
    List.mem_filter.2 ⟨List.mem_finRange k, by simpa using hk⟩
  rw [h] at this
  simp at this

/-- R10 (b): a slider of a configuration is wider than its thumb's margin. -/
theorem slider_width (cfg : Cfg) (j : SliderId) : 17 ≤ cfg.geom.sliders[j].width.toNat := by
  have h := cfg.wf
  simp only [Geometry.wf, List.all_eq_true, decide_eq_true_eq] at h
  exact h j (List.mem_finRange j)

/-- R137 over the integers. -/
theorem sliderValue_toNat (g : SliderGeom) (px : U16) (wide : 17 ≤ g.width.toNat) :
    ((sliderValue g px).toNat : Int) =
      if ((px.toNat : Int) - ((g.x.toNat : Int) - (g.width.toNat / 2 : Nat)) - 8) * 100 ≤ 0 then 0
      else min 100 (((px.toNat : Int) - ((g.x.toNat : Int) - (g.width.toNat / 2 : Nat)) - 8) * 100
        / ((g.width.toNat : Int) - 16)) := by
  simp only [sliderValue, Config.sliderMargin, Config.sliderMax]
  norm_num only
  split
  · rfl
  · rename_i pos
    have q := Int.ediv_nonneg (le_of_lt (not_le.1 pos)) (show 0 ≤ (g.width.toNat : Int) - 16 by omega)
    rw [BitVec.toNat_ofInt]
    omega

/-- R44, R142: a slider value is at most 100. -/
theorem sliderValue_le (g : SliderGeom) (px : U16) (wide : 17 ≤ g.width.toNat) : (sliderValue g px).toNat ≤ 100 := by
  have h := sliderValue_toNat g px wide
  split at h <;> omega

theorem buildFrame_length (c b lx ly rx ry : Byte) : (buildFrame c b lx ly rx ry).length = Config.frameLen := rfl

/-- A frame depends on `controlBits` only. -/
@[simp] theorem frameNow_idle (lx ly rx ry : Adc) (s : State) : frameNow lx ly rx ry s.idle = frameNow lx ly rx ry s := by
  simp [frameNow]

/-- R220 as the spec writes it. -/
theorem highlightNow_iff (s : State) (i : ButtonId) :
    highlightNow s i = true ↔
      s.capture.capBtnValid = true ∧ s.capture.capBtnId = i ∧ InButton s.cfg i s.touch.x s.touch.y := by
  simp [highlightNow, ← insideButton_iff, and_assoc]

@[simp] theorem highlightNow_idle (s : State) (i : ButtonId) : highlightNow s.idle i = highlightNow s i := rfl

/-- R221 for a button: on the page, and dirty or on a full redraw. -/
theorem drawsButton_iff (s : State) (i : ButtonId) :
    drawsButton s i = true ↔
      s.cfg.geom.buttons[i].pageId = 0 ∧ (s.buttons[i].dirty = true ∨ s.fullRedraw = true) := by
  simp [drawsButton, buttonOnPage]

/-- R221, R224 for a slider: on the page, and its value changed since it was drawn or on a full redraw. -/
theorem drawsSlider_iff (s : State) (j : SliderId) :
    drawsSlider s j = true ↔ s.cfg.geom.sliders[j].pageId = 0 ∧
      (s.sliders[j].value ≠ s.sliders[j].lastRenderedValue ∨ s.fullRedraw = true) := by
  simp [drawsSlider, sliderOnPage]

theorem refreshHighlight_button (s : State) (i : ButtonId) :
    (refreshHighlight s).buttons[i] =
      { s.buttons[i] with
        highlighted := highlightNow s i
        dirty := s.buttons[i].dirty || (highlightNow s i != s.buttons[i].highlighted) } := by
  simp only [refreshHighlight, State.mapButtons_buttons, Fin.getElem_fin, Vector.getElem_ofFn]
  split
  · rename_i h; simp [h]
  · rename_i h; simp [h]

theorem clearDrawn_button (s : State) (i : ButtonId) :
    (clearDrawn s).buttons[i] = { s.buttons[i] with dirty := s.buttons[i].dirty && !drawsButton s i } := by
  simp only [clearDrawn, State.mapSliders_buttons, State.mapButtons_buttons, Fin.getElem_fin, Vector.getElem_ofFn]
  split <;> simp_all

theorem clearDrawn_slider (s : State) (j : SliderId) :
    (clearDrawn s).sliders[j] =
      { s.sliders[j] with
        lastRenderedValue := if drawsSlider s j then s.sliders[j].value else s.sliders[j].lastRenderedValue } := by
  simp only [clearDrawn, State.mapSliders_sliders, State.mapButtons_sliders, Fin.getElem_fin, Vector.getElem_ofFn]
  split <;> simp_all

/-- Table R163, the pairs: button 2k + v of pair k deselects its partner, writes v to bit k and sends nothing. -/
theorem dispatchTable_pair : ∀ (k : Fin 8) (v : Bool) (i old : ButtonId), k.val < 5 →
    i.val = 2 * k.val + v.toNat → old.val = 2 * k.val + (!v).toNat →
    dispatchTable[i] = ⟨old, none, some (k, v), none⟩ ∧ i ≠ old := by decide

/-- Every button is one of a pair or an eye button (R163). -/
theorem button_cases : ∀ i : ButtonId,
    (∃ (k : Fin 8) (v : Bool) (old : ButtonId), k.val < 5 ∧ i.val = 2 * k.val + v.toNat ∧
      old.val = 2 * k.val + (!v).toNat) ∨ i = 10 ∨ i = 11 ∨ i = 12 := by decide

theorem takePress_button (s : State) (i : ButtonId) :
    (takePress s).buttons[i] =
      selectOne s.press.pressId dispatchTable[s.press.pressId].old dispatchTable[s.press.pressId].other i s.buttons[i] := by
  simp [takePress]

/-- Bit `i` of a mask is entry `i` (R99). -/
theorem maskOf_getLsbD {n : Nat} (v : Vector Bool n) (i : Fin n) : (maskOf v).getLsbD i.val = v[i] := by
  simp [maskOf]

theorem onDragUpdate_slider (px py : U16) (s : State) (j : SliderId) :
    (onDragUpdate px py s).sliders[j] =
      if s.capture.capSld[j] && insideSlider s.cfg j px py
      then { s.sliders[j] with value := sliderValue s.cfg.geom.sliders[j] px }
      else s.sliders[j] := by
  simp [onDragUpdate]

end Sys2Proof.Machine
end

