-- ==== Sys2Proof/Laws/Exec.lean ====
section
/-! SUPPORT. Laws/Exec.lean: what each operation answers, said once; proofs about runs cite these and do not unfold
`exec`. -/

namespace Sys2Proof.Machine

/-- The state an operation leads to. -/
def effect (i : Instr) (s : State) : State :=
  match i with
  | .nop => s.idle
  | .tick => { s.idle with tickAcc := wrapInc16 s.tickAcc }
  | .poll present x y => if present then pollPresent x y s.idle else pollAbsent s.idle
  | .rxsoc byte => { s.idle with remotePct := foldEstimate s.remotePct (remotePercent byte) }
  | .batt adc => { s.idle with localPct := foldEstimate s.localPct (localPercent adc) }
  | .step lx ly rx ry =>
    match s.phase with
    | .dispatch => dispatchPhase s.idle
    | .frame => framePhase lx ly rx ry s.idle
    | .render => renderPhase s.idle

/-- Every operation answers a next state, in every state (R240). -/
theorem exec_eq_effect (i : Instr) (s : State) : exec i s = .next (effect i s) := by
  cases i with
  | step lx ly rx ry => simp only [exec, execStep, effect]; cases s.phase <;> rfl
  | nop => rfl
  | tick => rfl
  | poll present x y => rfl
  | rxsoc byte => rfl
  | batt adc => rfl

theorem exec_next_iff {i : Instr} {s t : State} : exec i s = .next t ↔ t = effect i s := by
  rw [exec_eq_effect, Host.Outcome.next.injEq, eq_comm]

@[simp] theorem effect_nop (s : State) : effect .nop s = s.idle := rfl

theorem effect_poll_present (x y : U16) (s : State) : effect (.poll true x y) s = pollPresent x y s.idle := rfl

theorem effect_poll_absent (x y : U16) (s : State) : effect (.poll false x y) s = pollAbsent s.idle := rfl

theorem effect_step_dispatch {s : State} (h : s.phase = .dispatch) (lx ly rx ry : Adc) :
    effect (.step lx ly rx ry) s = dispatchPhase s.idle := by
  simp only [effect, h]

theorem effect_step_frame {s : State} (h : s.phase = .frame) (lx ly rx ry : Adc) :
    effect (.step lx ly rx ry) s = framePhase lx ly rx ry s.idle := by
  simp only [effect, h]

theorem effect_step_render {s : State} (h : s.phase = .render) (lx ly rx ry : Adc) :
    effect (.step lx ly rx ry) s = renderPhase s.idle := by
  simp only [effect, h]

/-- The four things a POLL with `present = 1` can do, by the counter before it (R112 to R114). -/
theorem pollPresent_cases (sx sy : U16) (s : State) :
    (s.touch.settleCount.toNat ≤ 1 ∧
      pollPresent sx sy s =
        { s with touch := ⟨.settling, satInc16 s.touch.settleCount, sx, sy⟩ }.report .none) ∨
    (s.touch.settleCount.toNat = 2 ∧
      pollPresent sx sy s = onTapDown sx sy
        ({ s with touch := ⟨.active, satInc16 s.touch.settleCount, sx, sy⟩ }.report (.tapDown sx sy))) ∨
    (3 ≤ s.touch.settleCount.toNat ∧
      pollPresent sx sy s = onDragUpdate sx sy
        ({ s with touch := ⟨.active, satInc16 s.touch.settleCount, sx, sy⟩ }.report (.dragUpdate sx sy))) := by
  have n := satInc16_toNat s.touch.settleCount
  simp only [pollPresent, Config.debounceN]
  rcases lt_trichotomy s.touch.settleCount.toNat 2 with h | h | h
  · exact .inl ⟨by omega, if_pos (by omega)⟩
  · exact .inr (.inl ⟨h, by rw [if_neg (by omega), if_pos (by omega)]⟩)
  · exact .inr (.inr ⟨h, by rw [if_neg (by omega), if_neg (by omega)]⟩)

/-- The two things a POLL with `present = 0` can do (R115, R116). -/
theorem pollAbsent_cases (s : State) :
    (3 ≤ s.touch.settleCount.toNat ∧
      pollAbsent s = { onTapUp (s.report (.tapUp s.touch.x s.touch.y)) with
        touch := { s.touch with state := .idle, settleCount := 0 } }) ∨
    (s.touch.settleCount.toNat < 3 ∧
      pollAbsent s = { s.report .none with touch := { s.touch with state := .idle, settleCount := 0 } }) := by
  simp only [pollAbsent, Config.debounceN]
  rcases Nat.lt_or_ge s.touch.settleCount.toNat 3 with h | h
  · exact .inr ⟨h, by rw [if_neg (by omega)]; rfl⟩
  · exact .inl ⟨h, by rw [if_pos h]; rfl⟩

/-- The two things a DISPATCH phase can do (R165, R166). -/
theorem dispatchPhase_cases (s : State) :
    (s.press.pressValid = true ∧ dispatchPhase s = (takePress s).goTo .frame) ∨
    (s.press.pressValid = false ∧ dispatchPhase s = s.goTo .frame) := by
  cases h : s.press.pressValid <;> simp [dispatchPhase, h]

/-- The two things a FRAME phase can do (R186). -/
theorem framePhase_cases (lx ly rx ry : Adc) (s : State) :
    (781 < s.tickAcc.toNat ∧ framePhase lx ly rx ry s =
      { s.txAppend (frameNow lx ly rx ry s) with tickAcc := BitVec.ofNat 16 (s.tickAcc.toNat - 781) }) ∨
    (s.tickAcc.toNat ≤ 781 ∧ framePhase lx ly rx ry s = s.goTo .render) := by
  rcases Nat.lt_or_ge 781 s.tickAcc.toNat with h | h
  · exact .inl ⟨h, by simp [framePhase, frameDue, h]⟩
  · exact .inr ⟨h, by simp [framePhase, frameDue, Nat.not_lt.2 h]⟩

/-- Everything an operation can do, the condition of each case beside it. -/
theorem effect_cases (i : Instr) (s : State) :
    (i = .nop ∧ effect i s = s.idle) ∨
    (i = .tick ∧ effect i s = { s.idle with tickAcc := wrapInc16 s.tickAcc }) ∨
    (∃ b, i = .rxsoc b ∧ effect i s = { s.idle with remotePct := foldEstimate s.remotePct (remotePercent b) }) ∨
    (∃ a, i = .batt a ∧ effect i s = { s.idle with localPct := foldEstimate s.localPct (localPercent a) }) ∨
    (∃ x y, i = .poll true x y ∧ s.touch.settleCount.toNat ≤ 1 ∧ effect i s =
      { s.idle with touch := ⟨.settling, satInc16 s.touch.settleCount, x, y⟩ }.report .none) ∨
    (∃ x y, i = .poll true x y ∧ s.touch.settleCount.toNat = 2 ∧ effect i s = onTapDown x y
      ({ s.idle with touch := ⟨.active, satInc16 s.touch.settleCount, x, y⟩ }.report (.tapDown x y))) ∨
    (∃ x y, i = .poll true x y ∧ 3 ≤ s.touch.settleCount.toNat ∧ effect i s = onDragUpdate x y
      ({ s.idle with touch := ⟨.active, satInc16 s.touch.settleCount, x, y⟩ }.report (.dragUpdate x y))) ∨
    (∃ x y, i = .poll false x y ∧ 3 ≤ s.touch.settleCount.toNat ∧ effect i s =
      { onTapUp (s.idle.report (.tapUp s.touch.x s.touch.y)) with
        touch := { s.touch with state := .idle, settleCount := 0 } }) ∨
    (∃ x y, i = .poll false x y ∧ s.touch.settleCount.toNat < 3 ∧ effect i s =
      { s.idle.report .none with touch := { s.touch with state := .idle, settleCount := 0 } }) ∨
    (∃ a b c d, i = .step a b c d ∧ s.phase = .dispatch ∧ s.press.pressValid = true ∧
      effect i s = (takePress s.idle).goTo .frame) ∨
    (∃ a b c d, i = .step a b c d ∧ s.phase = .dispatch ∧ s.press.pressValid = false ∧
      effect i s = s.idle.goTo .frame) ∨
    (∃ a b c d, i = .step a b c d ∧ s.phase = .frame ∧ 781 < s.tickAcc.toNat ∧ effect i s =
      { s.idle.txAppend (frameNow a b c d s) with tickAcc := BitVec.ofNat 16 (s.tickAcc.toNat - 781) }) ∨
    (∃ a b c d, i = .step a b c d ∧ s.phase = .frame ∧ s.tickAcc.toNat ≤ 781 ∧ effect i s = s.idle.goTo .render) ∨
    (∃ a b c d, i = .step a b c d ∧ s.phase = .render ∧ effect i s = renderPhase s.idle) := by
  cases i with
  | nop => exact .inl ⟨rfl, rfl⟩
  | tick => exact .inr (.inl ⟨rfl, rfl⟩)
  | rxsoc b => exact .inr (.inr (.inl ⟨b, rfl, rfl⟩))
  | batt a => exact .inr (.inr (.inr (.inl ⟨a, rfl, rfl⟩)))
  | poll present x y =>
    iterate 4 right
    cases present
    · iterate 3 right
      rcases pollAbsent_cases s.idle with ⟨h, e⟩ | ⟨h, e⟩
      · exact .inl ⟨x, y, rfl, h, e⟩
      · exact .inr (.inl ⟨x, y, rfl, h, e⟩)
    · rcases pollPresent_cases x y s.idle with ⟨h, e⟩ | ⟨h, e⟩ | ⟨h, e⟩
      · exact .inl ⟨x, y, rfl, h, e⟩
      · exact .inr (.inl ⟨x, y, rfl, h, e⟩)
      · exact .inr (.inr (.inl ⟨x, y, rfl, h, e⟩))
  | step a b c d =>
    iterate 9 right
    cases h : s.phase
    · rw [effect_step_dispatch h]
      rcases dispatchPhase_cases s.idle with ⟨v, e⟩ | ⟨v, e⟩
      · exact .inl ⟨a, b, c, d, rfl, rfl, v, e⟩
      · exact .inr (.inl ⟨a, b, c, d, rfl, rfl, v, e⟩)
    · rw [effect_step_frame h]
      rcases framePhase_cases a b c d s.idle with ⟨v, e⟩ | ⟨v, e⟩
      · exact .inr (.inr (.inl ⟨a, b, c, d, rfl, rfl, v, by rw [e, frameNow_idle]; rfl⟩))
      · exact .inr (.inr (.inr (.inl ⟨a, b, c, d, rfl, rfl, v, e⟩)))
    · rw [effect_step_render h]
      exact .inr (.inr (.inr (.inr ⟨a, b, c, d, rfl, rfl, rfl⟩)))

/-- No operation writes the configuration or the coming inputs (R75). -/
theorem effect_cfg (i : Instr) (s : State) : (effect i s).cfg = s.cfg := by
  rcases effect_cases i s with ⟨_, e⟩ | ⟨_, e⟩ | ⟨_, _, e⟩ | ⟨_, _, e⟩ | ⟨_, _, _, _, e⟩ | ⟨_, _, _, _, e⟩ |
    ⟨_, _, _, _, e⟩ | ⟨_, _, _, _, e⟩ | ⟨_, _, _, _, e⟩ | ⟨_, _, _, _, _, _, _, e⟩ | ⟨_, _, _, _, _, _, _, e⟩ |
    ⟨_, _, _, _, _, _, _, e⟩ | ⟨_, _, _, _, _, _, _, e⟩ | ⟨_, _, _, _, _, _, e⟩ <;> simp [e]

theorem effect_inputs (i : Instr) (s : State) : (effect i s).inputs = s.inputs := by
  rcases effect_cases i s with ⟨_, e⟩ | ⟨_, e⟩ | ⟨_, _, e⟩ | ⟨_, _, e⟩ | ⟨_, _, _, _, e⟩ | ⟨_, _, _, _, e⟩ |
    ⟨_, _, _, _, e⟩ | ⟨_, _, _, _, e⟩ | ⟨_, _, _, _, e⟩ | ⟨_, _, _, _, _, _, _, e⟩ | ⟨_, _, _, _, _, _, _, e⟩ |
    ⟨_, _, _, _, _, _, _, e⟩ | ⟨_, _, _, _, _, _, _, e⟩ | ⟨_, _, _, _, _, _, e⟩ <;> simp [e]

/-- No operation looks at the coming inputs. -/
theorem effect_with_inputs (i : Instr) (s : State) (l : List ClockInput) :
    effect i { s with inputs := l } = { effect i s with inputs := l } := by
  cases i with
  | poll present x y =>
    cases present
    · rw [effect_poll_absent, effect_poll_absent]
      rcases pollAbsent_cases s.idle with ⟨q, e⟩ | ⟨q, e⟩ <;>
        rcases pollAbsent_cases { s with inputs := l }.idle with ⟨q', e'⟩ | ⟨q', e'⟩
      · rw [e, e']; rfl
      · exact absurd q (Nat.not_le.2 q')
      · exact absurd q' (Nat.not_le.2 q)
      · rw [e, e']; rfl
    · rw [effect_poll_present, effect_poll_present]
      rcases pollPresent_cases x y s.idle with ⟨q, e⟩ | ⟨q, e⟩ | ⟨q, e⟩ <;>
        rcases pollPresent_cases x y { s with inputs := l }.idle with ⟨q', e'⟩ | ⟨q', e'⟩ | ⟨q', e'⟩ <;>
        simp only [State.idle_touch] at q q' <;>
        first
        | (exfalso; omega)
        | (rw [e, e']; rfl)
  | step a b c d =>
    obtain ⟨_, _, _, _, press, _, tickAcc, phase, _, _, _, _, _, _, _⟩ := s
    cases phase
    · obtain ⟨v, _⟩ := press; cases v <;> rfl
    · simp only [effect, framePhase]
      by_cases h : frameDue tickAcc = true
      · rw [if_pos (by exact h), if_pos (by exact h)]; rfl
      · rw [if_neg (by exact h), if_neg (by exact h)]; rfl
    · rfl
  | _ => rfl

/-! The run of a trace, one operation at a time. -/

@[simp] theorem runOps_nil (s : State) : runOps [] s = .next s := rfl

@[simp] theorem runOps_cons (i : Instr) (rest : List Instr) (s : State) :
    runOps (i :: rest) s = runOps rest (effect i s) := by
  simp only [runOps, exec_eq_effect]

@[simp] theorem outsOf_nil (s : State) : outsOf [] s = [] := rfl

@[simp] theorem outsOf_cons (i : Instr) (rest : List Instr) (s : State) :
    outsOf (i :: rest) s = (effect i s).out :: outsOf rest (effect i s) := by
  simp only [outsOf, exec_eq_effect]

@[simp] theorem eventsOf_nil (s : State) : eventsOf [] s = [] := rfl

@[simp] theorem eventsOf_cons (i : Instr) (rest : List Instr) (s : State) :
    eventsOf (i :: rest) s = (effect i s).out.event :: eventsOf rest (effect i s) := by
  simp [eventsOf]

@[simp] theorem bytesOf_nil (s : State) : bytesOf [] s = [] := rfl

@[simp] theorem bytesOf_cons (i : Instr) (rest : List Instr) (s : State) :
    bytesOf (i :: rest) s = (effect i s).out.tx ++ bytesOf rest (effect i s) := by
  simp [bytesOf]

/-- A trace of operations always runs to its end (R240). -/
theorem runOps_next (ops : List Instr) (s : State) : ∃ t, runOps ops s = .next t := by
  induction ops generalizing s with
  | nil => exact ⟨s, rfl⟩
  | cons i rest ih => rw [runOps_cons]; exact ih _

theorem runOps_append (a b : List Instr) (s t : State) (h : runOps a s = .next t) :
    runOps (a ++ b) s = runOps b t := by
  induction a generalizing s with
  | nil => cases h; rfl
  | cons i a ih => rw [List.cons_append, runOps_cons]; exact ih _ (by rwa [runOps_cons] at h)

theorem outsOf_append (a b : List Instr) (s t : State) (h : runOps a s = .next t) :
    outsOf (a ++ b) s = outsOf a s ++ outsOf b t := by
  induction a generalizing s with
  | nil => cases h; rfl
  | cons i a ih => simp [ih _ (by rwa [runOps_cons] at h)]

/-- A clock edge that presents no word and no reset only idles the outputs (R14). -/
theorem step_no_input {s : State} (h : s.inputs = []) : step s = .next s.idle := by
  simp [step, h, clockEdge]

/-- Everything a clock edge with a next state can do: idle, reset, or run one operation. -/
theorem step_cases {s t : State} (h : step s = .next t) :
    (s.inputs = [] ∧ t = s.idle) ∨
    ∃ c rest, s.inputs = c :: rest ∧
      ((c.rst = true ∧ t = { s with inputs := rest }.clockReset) ∨
       (c.rst = false ∧ c.opValid = false ∧ t = { s with inputs := rest }.idle) ∨
       (c.rst = false ∧ c.opValid = true ∧
         ∃ i, decode c.opWord = .ok i ∧ t = effect i { s with inputs := rest })) := by
  unfold step at h
  split at h
  · rename_i none
    exact .inl ⟨none, by simpa [clockEdge, eq_comm] using h⟩
  · rename_i c rest inputs
    refine .inr ⟨c, rest, inputs, ?_⟩
    unfold clockEdge at h
    cases r : c.rst
    · cases v : c.opValid
      · exact .inr (.inl ⟨rfl, rfl, by simpa [r, v, eq_comm] using h⟩)
      · simp only [r, v, acceptWord] at h
        cases d : decode c.opWord with
        | ok i => exact .inr (.inr ⟨rfl, rfl, i, rfl, by simpa [d, exec_next_iff] using h⟩)
        | error e => obtain ⟨opc⟩ := e; simp [d] at h
    · exact .inl ⟨rfl, by simpa [r, eq_comm] using h⟩

end Sys2Proof.Machine
end

