-- ==== Sys2Proof/Laws/PerInstr.lean ====
section
/-! SUPPORT. Laws/PerInstr.lean: a statement about every operation as syntax, one lemma per constructor. -/

namespace Sys2Proof.Laws.EncodedOpcode

/-- The encoder puts the operation code of table R81 in bits [47:44] (R80). -/
def Statement (i : Instr) : Prop := opcodeOf (encode i) = i.opcode

theorem nop : Statement .nop := BitVec.extractLsb'_append_eq_left

theorem tick : Statement .tick := BitVec.extractLsb'_append_eq_left

theorem poll (present : Bool) (x y : U16) : Statement (.poll present x y) :=
  BitVec.extractLsb'_append_eq_left

theorem rxsoc (byte : Byte) : Statement (.rxsoc byte) :=
  BitVec.extractLsb'_append_eq_left

theorem batt (adc : Adc) : Statement (.batt adc) :=
  BitVec.extractLsb'_append_eq_left

theorem step (lx ly rx ry : Adc) : Statement (.step lx ly rx ry) :=
  BitVec.extractLsb'_append_eq_left

end Sys2Proof.Laws.EncodedOpcode
end

