-- ==== Sys2Proof/Tests/Slice0.lean ====
section
/-! SUPPORT. Tests/Slice0.lean: the model's own tests. Expected values are the spec's: the worked examples beside the
rules and the vectors of spec/95_test_vectors.md. After them, for every obligation with hypotheses, a state and
operands that meet them. -/

namespace Sys2Proof.Tests

open Sys2Proof Sys2Proof.Machine

/-- The next state of an outcome. -/
def nextOf : Host.Outcome State Fault Refusal → Option State
  | .next s => some s
  | .fault _ => none
  | .refused _ => none

/-- The state after reset with fixture T1. -/
def base : State := State.resetWith Cfg.fixtureOne

/-- A contact of `n` samples so far, the last at (x, y), with nothing captured. -/
def contact (n : Nat) (x y : U16) (cfg : Cfg) : State :=
  { State.resetWith cfg with touch := { state := sessionStateOf (BitVec.ofNat 16 n), settleCount := BitVec.ofNat 16 n, x := x, y := y } }

/-- The state with button `i` captured. -/
def holding (i : ButtonId) (s : State) : State :=
  { s with capture := { capBtnValid := true, capBtnId := i, capSld := Vector.ofFn fun _ => false } }

/-- The state with slider 0 captured. -/
def dragging (s : State) : State :=
  { s with capture := { capBtnValid := false, capBtnId := 0, capSld := #v[true, false] } }

/-- The state with button `i` pressed. -/
def pressed (i : ButtonId) (s : State) : State := { s with press := { pressValid := true, pressId := i } }

/-- The state in phase `p` with `n` ticks. -/
def inPhase (p : Phase) (n : Nat) (s : State) : State := { s with phase := p, tickAcc := BitVec.ofNat 16 n }

/-! WellFormed: R10 (b), with the term that breaks it. -/

/-- Fixture T1 with slider 1 of the given width. -/
def withSliderWidth (w : U16) : Geometry :=
  { Geometry.fixtureOne with sliders := #v[.at 100 225 116, .at 240 225 w] }

theorem test_wf_refuses_slider_width_16 : (withSliderWidth 16).wf = false ∧ (withSliderWidth 16).configure.isNone = true := by
  decide
theorem test_wf_accepts_slider_width_17 : (withSliderWidth 17).wf = true ∧ (withSliderWidth 17).configure.isSome = true := by
  decide
theorem test_wf_accepts_fixture_two : Geometry.fixtureTwo.configure = some Cfg.fixtureTwo := by decide

/-! Decode: words of V-ENC and of R82 to R86, written field by field. -/

theorem test_decode_nop : decode (0x0#4 ++ 0x00000000000#44) = .ok .nop := by rfl
theorem test_decode_nop_ignored_bits : decode (0x0#4 ++ 0xFFFFFFFFFFF#44) = .ok .nop := by rfl
theorem test_decode_tick : decode 0x1ABCDEF01234#48 = .ok .tick := by rfl
theorem test_decode_poll_present :
    decode (0x2#4 ++ 0b00000000000#11 ++ 0b1#1 ++ 0x008C#16 ++ 0x001E#16) = .ok (.poll true 140 30) := by rfl
theorem test_decode_poll_absent_ignored_bits :
    decode (0x2#4 ++ 0b11111111111#11 ++ 0b0#1 ++ 0x008C#16 ++ 0x001E#16) = .ok (.poll false 140 30) := by rfl
theorem test_decode_rxsoc : decode (0x3#4 ++ 0xFFFFFFFFF#36 ++ 0x57#8) = .ok (.rxsoc 87) := by rfl
theorem test_decode_batt : decode (0x4#4 ++ 0x3FFFFFFFF#34 ++ 0x28A#10) = .ok (.batt 650) := by rfl
theorem test_decode_step :
    decode (0x5#4 ++ 0xF#4 ++ 3#10 ++ 512#10 ++ 0#10 ++ 1023#10) = .ok (.step 1023 0 512 3) := by rfl
theorem test_decode_reserved :
    decode 0x600000000000#48 = .error (.reserved 6) ∧ decode 0xF00000000000#48 = .error (.reserved 15) := ⟨rfl, rfl⟩
theorem test_encode_words :
    encode (.poll true 140 30) = 0x2001008C001E#48 ∧ encode (.rxsoc 255) = 0x3000000000FF#48 ∧
    encode (.batt 1023) = 0x4000000003FF#48 ∧ encode (.step 1023 0 512 3) = 0x5000E00003FF#48 ∧
    encode .tick = 0x100000000000#48 ∧ encode .nop = 0x000000000000#48 := by decide
theorem test_table_word :
    decodeTableWord 48 0x502807814028 = some (.step 40 80 120 160) ∧ decodeTableWord 48 0x700000000000 = none := by decide

/-! The operation port. -/

theorem test_fetch_runs_tick :
    (nextOf (step (State.reset.withFetchWord 48 0x100000000000))).map (fun t => (t.tickAcc, t.inputs)) = some (1, []) := by decide
theorem test_fetch_runs_step :
    (nextOf (step (State.reset.withFetchWord 48 0x500000000000))).map State.phase = some .frame := by decide

/-! NOP, TICK. -/

theorem test_nop_same_state : nextOf (exec .nop base) = some base := by rfl
theorem test_tick_makes_a_frame_due :
    (nextOf (exec .tick (inPhase .frame 781 base))).map (fun t => frameDue t.tickAcc) = some true := by decide
theorem test_tick_wraps :
    (nextOf (exec .tick (inPhase .dispatch 65535 base))).map State.tickAcc = some 0 := by decide

/-! POLL: S1, V-DEB, V-HIT, V-SEL, V-SLD. -/

/-- S1 row 3. -/
theorem test_poll_third_sample_captures :
    (nextOf (exec (.poll true 140 30) (contact 2 140 30 Cfg.fixtureOne))).map
      (fun t => (t.out.event, t.touch.settleCount, t.capture)) =
    some (.tapDown 140 30, 3, { capBtnValid := true, capBtnId := 0, capSld := #v[false, false] }) := by decide
/-- R134 and R136 in fixture T2: the higher id wins, and a slider under a button is captured with it. -/
theorem test_poll_overlap :
    (nextOf (exec (.poll true 30 55) (contact 2 0 0 Cfg.fixtureTwo))).map (fun t => t.capture.capBtnId) = some 11 ∧
    (nextOf (exec (.poll true 140 200) (contact 2 0 0 Cfg.fixtureTwo))).map State.capture =
      some { capBtnValid := true, capBtnId := 8, capSld := #v[true, false] } := by decide
/-- R137: TRIM_A at px 120 is 70; V-DEB 11: the counter saturates. -/
theorem test_poll_drag :
    (nextOf (exec (.poll true 120 230) (dragging (contact 65535 100 230 Cfg.fixtureOne)))).map
      (fun t => (t.sliders[0].value, t.sliders[1].value, t.touch.settleCount)) = some (70, 50, 65535) := by decide
/-- S1 row 4. -/
theorem test_poll_release_presses :
    (nextOf (exec (.poll false 0 0) (holding 0 (contact 3 140 30 Cfg.fixtureOne)))).map
      (fun t => (t.out.event, t.press, t.capture, t.touch)) =
    some (.tapUp 140 30, { pressValid := true, pressId := 0 }, Capture.nothing,
      { state := .idle, settleCount := 0, x := 140, y := 30 }) := by decide
/-- V-HIT: the closed box of WALK_MODE. -/
theorem test_hit_edges :
    insideButton Cfg.fixtureOne 0 90 30 = true ∧ insideButton Cfg.fixtureOne 0 190 58 = true ∧
    insideButton Cfg.fixtureOne 0 89 30 = false ∧ insideButton Cfg.fixtureOne 0 191 58 = false ∧
    insideButton Cfg.fixtureOne 0 140 29 = false ∧ insideButton Cfg.fixtureOne 0 140 59 = false := by decide
/-- R137's three examples. -/
theorem test_slider_value :
    sliderValue (.at 100 225 116) 120 = 70 ∧ sliderValue (.at 100 225 116) 42 = 0 ∧
    sliderValue (.at 100 225 116) 158 = 100 := by decide

/-! RXSOC, BATT: R204, S2, R201. -/

theorem test_rxsoc_stores_lower_only :
    (nextOf (exec (.rxsoc 86) { base with remotePct := 87 })).map State.remotePct = some 86 ∧
    (nextOf (exec (.rxsoc 200) { base with remotePct := 86 })).map State.remotePct = some 86 := by decide
theorem test_batt_rejects_an_increase :
    (nextOf (exec (.batt 645) base)).map State.localPct = some 96 ∧
    (nextOf (exec (.batt 648) { base with localPct := 96 })).map State.localPct = some 96 := by decide
theorem test_batt_rounds_toward_zero :
    localPercent 499 = 0 ∧ localPercent 498 = -1 ∧ localPercent 0 = -333 ∧ localPercent 1023 = 348 := by decide

/-! STEP: the examples of R165, R186 and R221. -/

theorem test_step_dispatch_wiggle :
    (nextOf (exec (.step 0 0 0 0) (pressed 1 base))).map
      (fun t => (t.buttons[1].selected, t.buttons[0].selected, t.controlBits, t.press.pressValid, t.phase)) =
    some (true, false, 0x01, false, .frame) := by decide
theorem test_step_dispatch_eye_green :
    (nextOf (exec (.step 0 0 0 0) (pressed 11 base))).map
      (fun t => (t.buttons[11].selected, t.buttons[10].selected, t.controlBits, t.tx)) =
    some (true, false, 0x00, [0x67]) := by decide
theorem test_step_frame :
    (nextOf (exec (.step 40 80 120 160) (inPhase .frame 782 { base with controlBits := 0x15 }))).map
      (fun t => (t.tx, t.tickAcc, t.phase)) = some ([0x63, 0x15, 10, 20, 30, 40, 0x79], 1, .frame) := by decide
theorem test_step_render_first_pass :
    (nextOf (exec (.step 0 0 0 0) (inPhase .render 0 base))).map
      (fun t => (t.ports.draw, t.fullRedraw, t.phase)) =
    some (some { full := true, btn := 0x1FFF, sld := 0b11, gaugeLocal := 100, gaugeRemote := 100 }, false, .dispatch) := by decide
/-- R183's example of a wrap. -/
theorem test_frame_checksum_wraps : buildFrame 0x63 0xFF 255 255 255 255 = [0x63, 0xFF, 255, 255, 255, 255, 251] := by decide
/-- R220's example: WALK_MODE captured, the finger at (140,30). -/
theorem test_render_highlights_the_captured_button :
    (nextOf (exec (.step 0 0 0 0) (inPhase .render 0 (holding 0 (contact 3 140 30 Cfg.fixtureOne))))).map
      (fun t => (t.buttons[0].highlighted, t.buttons[1].highlighted)) = some (true, false) := by decide

/-! Trace lines (R101, R102). -/

theorem test_parse_poll : parseLine "POLL 1 140 0x1E # S1".toList = some (some (.op (.poll true 140 30))) := by decide
theorem test_parse_refuses : parseLine "BATT 1024".toList = none ∧ parseLine "# only a comment".toList = some none := by decide
theorem test_expand_tap :
    TraceOp.expand base (.tap 140 30) =
      [.poll true 140 30, .poll true 140 30, .poll true 140 30, .poll false 0 0] := by decide

/-! A state and operands that meet the hypotheses of each obligation that has any, clause by clause and at the ends
of each range. -/

theorem test_meets_DecodeEncodeRoundTrip : decode 0x1ABCDEF01234 = .ok .tick ∧
    (opcodeOf 0x5FFFFFFFFFFF).toNat ≤ 5 ∧ 6 ≤ (opcodeOf 0x600000000000).toNat := by decide

theorem test_meets_IgnoredBitsHaveNoEffect :
    (0x2FFF008C001E#48 &&& usedBits (opcodeOf 0x2FFF008C001E) = 0x2001008C001E#48 &&& usedBits (opcodeOf 0x2FFF008C001E)) ∧
    decode 0x2FFF008C001E = .ok (.poll true 140 30) := by decide

theorem test_meets_EachFormatReadsItsFields :
    (0x0FFFFFFFFFFF#48).toNat / 2 ^ 44 = 0 ∧ (0x100000000000#48).toNat / 2 ^ 44 = 1 ∧
    (0x2FFFFFFFFFFF#48).toNat / 2 ^ 44 = 2 ∧ (0x300000000000#48).toNat / 2 ^ 44 = 3 ∧
    (0x4FFFFFFFFFFF#48).toNat / 2 ^ 44 = 4 ∧ (0x5FFFFFFFFFFF#48).toNat / 2 ^ 44 = 5 ∧
    ¬ ((inPhase .frame 781 base).phase = .frame ∧ 781 < (inPhase .frame 781 base).tickAcc.toNat) := by decide

theorem test_meets_StepRunsTheDecodedOperation :
    (base.withFetchWord 48 0x300000000057).inputs =
      { rst := false, opValid := true, opWord := 0x300000000057 } :: base.inputs ∧
    decode 0x300000000057 = .ok (.rxsoc 87) ∧ base.inputs = [] ∧
    ({ base with inputs := [{ rst := false, opValid := false, opWord := 0 }] } : State).inputs =
      { rst := false, opValid := false, opWord := 0 } :: [] := by decide

theorem test_meets_ReservedCodeIsRefused :
    (base.withFetchWord 48 0x6FFFFFFFFFFF).inputs =
      { rst := false, opValid := true, opWord := 0x6FFFFFFFFFFF } :: [] ∧
    6 ≤ (0x6FFFFFFFFFFF#48).toNat / 2 ^ 44 ∧ 6 ≤ (0xF00000000000#48).toNat / 2 ^ 44 := by decide

theorem test_meets_ReservedCodeIsRefused_next : ∃ t, exec .tick base = .next t := ⟨_, exec_eq_effect _ _⟩

theorem test_meets_ResetWinsOverAnyWord :
    ({ base with inputs := [{ rst := true, opValid := true, opWord := 0x100000000000 }] } : State).inputs =
      { rst := true, opValid := true, opWord := 0x100000000000 } :: [] := rfl

theorem test_meets_NarrowSliderConfigurationRefused :
    (∃ j : SliderId, (withSliderWidth 16).sliders[j].width.toNat < 17) ∧ (withSliderWidth 16).configure = none ∧
    Geometry.fixtureOne.configure = some Cfg.fixtureOne := by decide

theorem test_meets_TicksAccumulateToAFrame : base.tickAcc = 0 ∧ 782 < 2 ^ 16 ∧
    ∃ t, runOps (List.replicate 782 .tick) base = .next t := ⟨by decide, by decide, runOps_next _ _⟩

theorem test_meets_PollSuppressesTheFirstTwoSamples :
    (contact 0 0 0 Cfg.fixtureOne).touch.settleCount.toNat + 1 < 3 ∧
    (contact 1 140 30 Cfg.fixtureOne).touch.settleCount.toNat + 1 < 3 := by decide

theorem test_meets_PollSuppressesTheFirstTwoSamples_next : ∃ t u,
    exec (.poll true 140 30) (contact 65535 140 30 Cfg.fixtureOne) = .next t ∧
    exec (.poll false 140 30) (contact 65535 140 30 Cfg.fixtureOne) = .next u :=
  ⟨_, _, exec_eq_effect _ _, exec_eq_effect _ _⟩

theorem test_meets_ThirdSampleCaptures : (contact 2 140 30 Cfg.fixtureTwo).touch.settleCount.toNat + 1 = 3 := by decide

/-- The box of TRIM_A in T1 is [42,158] x [225,245]. -/
theorem test_meets_DragMovesCapturedSliders :
    3 < (dragging (contact 3 42 225 Cfg.fixtureOne)).touch.settleCount.toNat + 1 ∧
    3 < (dragging (contact 65535 42 225 Cfg.fixtureOne)).touch.settleCount.toNat + 1 ∧
    (dragging (contact 3 42 225 Cfg.fixtureOne)).capture.capSld[(0 : SliderId)] = true ∧
    InSlider Cfg.fixtureOne 0 42 225 ∧ InSlider Cfg.fixtureOne 0 158 245 ∧
    ¬ InSlider Cfg.fixtureOne 0 41 225 ∧ ¬ InSlider Cfg.fixtureOne 0 158 246 ∧
    ¬ ((dragging (contact 3 42 225 Cfg.fixtureOne)).capture.capSld[(1 : SliderId)] = true ∧
      InSlider Cfg.fixtureOne 1 42 225) := by
  simp only [InSlider, InBox]; decide

/-- The box of WALK_MODE in T1 is [90,190] x [30,58]. -/
theorem test_meets_ReleasePressesTheCapturedButton :
    3 ≤ (holding 0 (contact 3 190 58 Cfg.fixtureOne)).touch.settleCount.toNat ∧
    (holding 0 (contact 3 190 58 Cfg.fixtureOne)).capture.capBtnValid = true ∧
    InButton Cfg.fixtureOne (holding 0 (contact 3 190 58 Cfg.fixtureOne)).capture.capBtnId 190 58 ∧
    InButton Cfg.fixtureOne 0 90 30 ∧
    ¬ ((holding 0 (contact 3 191 58 Cfg.fixtureOne)).capture.capBtnValid = true ∧
      InButton Cfg.fixtureOne (holding 0 (contact 3 191 58 Cfg.fixtureOne)).capture.capBtnId 191 58) := by
  simp only [InButton, InBox]; decide

theorem test_meets_ShortContactIsDiscarded :
    (contact 2 10 10 Cfg.fixtureOne).touch.settleCount.toNat < 3 ∧
    (contact 0 0 0 Cfg.fixtureOne).touch.settleCount.toNat < 3 ∧
    base.touch.state = .idle ∧ base.touch.settleCount = 0 ∧ ([(1, 1), (2, 2)] : List (U16 × U16)).length < 3 := by decide

theorem test_meets_ContactEventSequence :
    base.touch.settleCount = 0 ∧ ([(1, 1), (2, 2)] : List (U16 × U16)).length < 3 := by decide

theorem test_meets_NoTapUpWithinThreePolls : base.touch.settleCount = 0 ∧
    (([.poll true 1 1, .tick, .poll true 1 1, .poll true 1 1] : List Instr).filter isPoll).length < 4 := by decide

theorem test_meets_EstimatesNeverIncrease : ∃ t, exec (.rxsoc 0) base = .next t := ⟨_, exec_eq_effect _ _⟩

/-- An estimate at 99 that a reset raises to 100. -/
theorem test_meets_OnlyResetRaisesAnEstimate :
    let s : State := { base with localPct := 99, inputs := [{ rst := true, opValid := false, opWord := 0 }] }
    ∃ t, step s = .next t ∧ s.localPct.toInt < t.localPct.toInt := ⟨_, rfl, by decide⟩

theorem test_meets_DispatchTakesThePress :
    (0 : Fin 8).val < 5 ∧ (0 : ButtonId).val = 2 * (0 : Fin 8).val + false.toNat ∧
    (1 : ButtonId).val = 2 * (0 : Fin 8).val + (!false).toNat ∧
    (4 : Fin 8).val < 5 ∧ (9 : ButtonId).val = 2 * (4 : Fin 8).val + true.toNat ∧
    (8 : ButtonId).val = 2 * (4 : Fin 8).val + (!true).toNat ∧
    (∀ i : ButtonId, (pressed i base).phase = .dispatch ∧ (pressed i base).press.pressValid = true ∧
      (pressed i base).press.pressId = i) ∧
    base.phase = .dispatch ∧ base.press.pressValid = false := by decide

/-- From reset WIGGLE_MODE changes bit 0. -/
theorem test_meets_AtMostOneControlBitChanges :
    ∃ t, exec (.step 0 0 0 0) (pressed 1 base) = .next t ∧
      t.controlBits.getLsbD (0 : Fin 8).val ≠ (pressed 1 base).controlBits.getLsbD (0 : Fin 8).val :=
  ⟨_, exec_eq_effect _ _, by decide⟩

theorem test_meets_FramePhaseSendsWhenDue :
    (inPhase .frame 782 base).phase = .frame ∧ 781 < (inPhase .frame 782 base).tickAcc.toNat ∧
    (inPhase .frame 781 base).tickAcc.toNat ≤ 781 := by decide

/-- R188's example: 1600 ticks are two frames. -/
theorem test_meets_FramePhaseDrainsTheBacklog :
    (inPhase .frame 1600 base).phase = .frame ∧
    (List.replicate 3 ((0, 0, 0, 0) : Adc × Adc × Adc × Adc)).length =
      ((inPhase .frame 1600 base).tickAcc.toNat - 1) / 781 + 1 ∧
    (List.replicate 1 ((0, 0, 0, 0) : Adc × Adc × Adc × Adc)).length =
      ((inPhase .frame 0 base).tickAcc.toNat - 1) / 781 + 1 := by decide

theorem test_meets_RenderPassDrawsAndClears : (inPhase .render 0 base).phase = .render := rfl

theorem test_meets_DirtyClearedOnlyByADraw :
    ∃ t, exec (.step 0 0 0 0) (inPhase .render 0 base) = .next t ∧
      (inPhase .render 0 base).buttons[(12 : ButtonId)].dirty = true ∧ t.buttons[(12 : ButtonId)].dirty = false :=
  ⟨_, exec_eq_effect _ _, by decide, by decide⟩

theorem test_meets_RepeatedOperationsAreIdempotent :
    (∃ t, exec (.rxsoc 87) base = .next t) ∧ (∃ t, exec (.batt 640) base = .next t) ∧ (∃ t, exec .nop base = .next t) ∧
    (inPhase .render 0 base).phase = .render ∧ ∃ t, exec (.step 0 0 0 0) (inPhase .render 0 base) = .next t :=
  ⟨⟨_, exec_eq_effect _ _⟩, ⟨_, exec_eq_effect _ _⟩, ⟨_, exec_eq_effect _ _⟩, rfl, _, exec_eq_effect _ _⟩

theorem test_meets_PhaseMovesOnlyByStep :
    isStep .tick = false ∧ isStep (.step 0 0 0 0) = true ∧ base.phase = .dispatch ∧
    (inPhase .frame 782 base).phase = .frame ∧ 781 < (inPhase .frame 782 base).tickAcc.toNat ∧
    (inPhase .frame 781 base).tickAcc.toNat ≤ 781 ∧ (inPhase .render 0 base).phase = .render ∧
    ∃ t, exec (.step 0 0 0 0) base = .next t :=
  ⟨rfl, rfl, rfl, rfl, by decide, by decide, rfl, _, exec_eq_effect _ _⟩

theorem test_meets_LoopRunsOneIteration : (inPhase .dispatch 782 base).phase = .dispatch := rfl

/-- QUICK_STEP, bit 3, taken with a frame due, and a TICK in between. -/
theorem test_meets_FramesCarryTheirIterationsPress :
    let s := pressed 7 (inPhase .dispatch 782 base)
    let s₁ := effect (.step 0 0 0 0) s
    let u := effect .tick s₁
    (3 : Fin 8).val < 5 ∧ s.phase = .dispatch ∧ s.press.pressValid = true ∧
    s.press.pressId.val = 2 * (3 : Fin 8).val + true.toNat ∧ exec (.step 0 0 0 0) s = .next s₁ ∧
    runOps [.tick] s₁ = .next u ∧ drawsOf [.tick] s₁ = [] ∧ u.phase = .frame ∧ 781 < u.tickAcc.toNat ∧
    ∃ t, exec (.step 0 0 0 0) u = .next t :=
  ⟨by decide, rfl, rfl, by decide, exec_eq_effect _ _, by simp, rfl, rfl, by decide, _, exec_eq_effect _ _⟩

theorem test_meets_EventPortCodes :
    base.out.event = .none ∧ isPoll .tick = false ∧
    (effect (.poll true 140 30) (contact 2 140 30 Cfg.fixtureOne)).out.event = .tapDown 140 30 ∧
    (effect (.poll true 140 30) (contact 3 140 30 Cfg.fixtureOne)).out.event = .dragUpdate 140 30 ∧
    (effect (.poll false 0 0) (contact 3 140 30 Cfg.fixtureOne)).out.event = .tapUp 140 30 := by decide

theorem test_meets_TransmitPortShowsTheBytes : ∃ t, exec (.step 0 0 0 0) (pressed 10 base) = .next t :=
  ⟨_, exec_eq_effect _ _⟩

theorem test_meets_DrawPortShowsTheRecord :
    ∃ d, (effect (.step 0 0 0 0) (inPhase .render 0 base)).out.draw = some d ∧
      isStepIn .render (.step 0 0 0 0) (inPhase .render 0 base) = true := ⟨_, rfl, rfl⟩

/-- Two states that differ in the tick accumulator, which POLL is not listed for. -/
theorem test_meets_OperationsTouchOnlyListedRegisters :
    (inPhase .dispatch 5 base).cfg = base.cfg ∧
    (∀ r : Reg, r.listedFor (.poll true 1 1) (inPhase .dispatch 5 base) = true →
      r.bits (inPhase .dispatch 5 base) = r.bits base) ∧
    Reg.writtenBy (.poll true 1 1) base .tickAcc = false ∧
    (∃ t, exec (.poll true 1 1) (inPhase .dispatch 5 base) = .next t) ∧ ∃ t, exec (.poll true 1 1) base = .next t := by
  refine ⟨rfl, fun r h => ?_, rfl, ⟨_, exec_eq_effect _ _⟩, _, exec_eq_effect _ _⟩
  cases r <;> first | rfl | cases h

theorem test_meets_RegistersDetermineTheState :
    ∃ s t : State, s.cfg = t.cfg ∧ s.inputs = t.inputs ∧ s.out = t.out ∧ s.tx = t.tx ∧ ∀ r : Reg, r.bits s = r.bits t :=
  ⟨base, base.idle, rfl, rfl, rfl, rfl, fun _ => rfl⟩

theorem test_meets_EveryStepKeepsTheInvariants : Inv base ∧ ∃ t, step base = .next t := by
  refine ⟨⟨rfl, by decide, fun _ => rfl, fun _ => rfl, ?_, by decide, by decide, by decide⟩, _, rfl⟩
  simp only [GroupsExclusive]; decide

theorem test_meets_ReachableStatesKeepTheInvariants : Reachable State.reset := Reachable.start Cfg.fixtureOne []

theorem test_meets_StreamIsTheHistoryOfAppends :
    ∃ t, runOps [.step 0 0 0 0, .tick] (pressed 10 base) = .next t := runOps_next _ _

end Sys2Proof.Tests
end

namespace Sys2Proof.Machine

/-! Equations of `effect`, one per branch of an operation (R112 to R116, R165, R166, R186). -/

theorem effect_poll_settling {s : State} (n : s.touch.settleCount.toNat ≤ 1) (x y : U16) :
    effect (.poll true x y) s =
      { s.idle with touch := ⟨.settling, satInc16 s.touch.settleCount, x, y⟩ }.report .none := by
  rcases pollPresent_cases x y s.idle with ⟨-, e⟩ | ⟨m, -⟩ | ⟨m, -⟩
  · exact e
  all_goals rw [State.idle_touch] at m; omega

theorem effect_poll_tapDown {s : State} (n : s.touch.settleCount.toNat = 2) (x y : U16) :
    effect (.poll true x y) s = onTapDown x y
      ({ s.idle with touch := ⟨.active, satInc16 s.touch.settleCount, x, y⟩ }.report (.tapDown x y)) := by
  rcases pollPresent_cases x y s.idle with ⟨m, -⟩ | ⟨-, e⟩ | ⟨m, -⟩
  case inr.inl => exact e
  all_goals rw [State.idle_touch] at m; omega

theorem effect_poll_drag {s : State} (n : 3 ≤ s.touch.settleCount.toNat) (x y : U16) :
    effect (.poll true x y) s = onDragUpdate x y
      ({ s.idle with touch := ⟨.active, satInc16 s.touch.settleCount, x, y⟩ }.report (.dragUpdate x y)) := by
  rcases pollPresent_cases x y s.idle with ⟨m, -⟩ | ⟨m, -⟩ | ⟨-, e⟩
  case inr.inr => exact e
  all_goals rw [State.idle_touch] at m; omega

theorem effect_poll_tapUp {s : State} (n : 3 ≤ s.touch.settleCount.toNat) (x y : U16) :
    effect (.poll false x y) s =
      { onTapUp (s.idle.report (.tapUp s.touch.x s.touch.y)) with
        touch := { s.touch with state := .idle, settleCount := 0 } } := by
  rcases pollAbsent_cases s.idle with ⟨-, e⟩ | ⟨m, -⟩
  · exact e
  · exact absurd n (Nat.not_le.2 m)

theorem effect_poll_noise {s : State} (n : s.touch.settleCount.toNat < 3) (x y : U16) :
    effect (.poll false x y) s =
      { s.idle.report .none with touch := { s.touch with state := .idle, settleCount := 0 } } := by
  rcases pollAbsent_cases s.idle with ⟨m, -⟩ | ⟨-, e⟩
  · exact absurd n (Nat.not_lt.2 m)
  · exact e

theorem effect_dispatch_press {s : State} (p : s.phase = .dispatch) (v : s.press.pressValid = true)
    (lx ly rx ry : Adc) : effect (.step lx ly rx ry) s = (takePress s.idle).goTo .frame := by
  simp [effect_step_dispatch p, dispatchPhase, v]

theorem effect_dispatch_noPress {s : State} (p : s.phase = .dispatch) (v : s.press.pressValid = false)
    (lx ly rx ry : Adc) : effect (.step lx ly rx ry) s = s.idle.goTo .frame := by
  simp [effect_step_dispatch p, dispatchPhase, v]

theorem effect_frame_due {s : State} (p : s.phase = .frame) (d : 781 < s.tickAcc.toNat) (lx ly rx ry : Adc) :
    effect (.step lx ly rx ry) s =
      { s.idle.txAppend (frameNow lx ly rx ry s) with tickAcc := BitVec.ofNat 16 (s.tickAcc.toNat - 781) } := by
  simp [effect_step_frame p, framePhase, frameDue, d]

theorem effect_frame_notDue {s : State} (p : s.phase = .frame) (d : s.tickAcc.toNat ≤ 781) (lx ly rx ry : Adc) :
    effect (.step lx ly rx ry) s = s.idle.goTo .render := by
  simp [effect_step_frame p, framePhase, frameDue, Nat.not_lt.2 d]

/-! What `select`, a drag and a render pass do to one record (R137, R160, R220, R221). -/

@[simp] theorem selectOne_highlighted (new old : ButtonId) (other : Option ButtonId) (i : ButtonId) (b : Button) :
    (selectOne new old other i b).highlighted = b.highlighted := by
  simp only [selectOne]
  split
  · rfl
  · split <;> rfl

theorem selectOne_selected (new old : ButtonId) (other : Option ButtonId) (i : ButtonId) (b : Button) :
    (selectOne new old other i b).selected =
      if i = new then true else if i = old ∨ some i = other then false else b.selected := by
  simp only [selectOne]
  split
  · rfl
  · split <;> rfl

theorem selectOne_dirty (new old : ButtonId) (other : Option ButtonId) (i : ButtonId) (b : Button) :
    (selectOne new old other i b).dirty = if i = new ∨ i = old ∨ some i = other then true else b.dirty := by
  simp only [selectOne]
  split
  · simp [*]
  · split <;> simp [*]

theorem renderPhase_button (s : State) (i : ButtonId) :
    (renderPhase s).buttons[i] =
      { s.buttons[i] with
        highlighted := highlightNow s i
        dirty := (s.buttons[i].dirty || (highlightNow s i != s.buttons[i].highlighted)) &&
          !drawsButton (refreshHighlight s) i } := by
  rw [renderPhase_buttons, clearDrawn_button, refreshHighlight_button]

theorem renderPhase_slider (s : State) (j : SliderId) :
    (renderPhase s).sliders[j] =
      { s.sliders[j] with
        lastRenderedValue := if drawsSlider s j then s.sliders[j].value else s.sliders[j].lastRenderedValue } := by
  rw [renderPhase_sliders, clearDrawn_slider]
  rfl

theorem onDragUpdate_value (px py : U16) (s : State) (j : SliderId) :
    (onDragUpdate px py s).sliders[j].value =
      if s.capture.capSld[j] && insideSlider s.cfg j px py
      then sliderValue s.cfg.geom.sliders[j] px else s.sliders[j].value := by
  rw [onDragUpdate_slider]
  split <;> rfl

theorem onDragUpdate_lastRenderedValue (px py : U16) (s : State) (j : SliderId) :
    (onDragUpdate px py s).sliders[j].lastRenderedValue = s.sliders[j].lastRenderedValue := by
  rw [onDragUpdate_slider]
  split <;> rfl

/-! The column "written by" of table R48: a register the operation is not listed for keeps its value. -/

theorem poll_keeps_unwritten (present : Bool) (x y : U16) (s : State) (r : Reg)
    (w : r.writtenBy (.poll present x y) s = false) : r.bits (effect (.poll present x y) s) = r.bits s := by
  cases present with
  | true =>
    rcases lt_trichotomy s.touch.settleCount.toNat 2 with n | n | n
    · rw [effect_poll_settling (Nat.le_of_lt_succ n)]
      cases r
      case state | settleCount | x | y => cases w
      all_goals rfl
    · rw [effect_poll_tapDown n]
      cases r
      case state | settleCount | x | y => cases w
      case capBtnValid | capBtnId | capSld => simp [Reg.writtenBy, isTapDown, isPresent, n] at w
      all_goals rfl
    · rw [effect_poll_drag n]
      cases r
      case state | settleCount | x | y => cases w
      case value => simp [Reg.writtenBy, isDrag, isPresent] at w; omega
      case lastRendered j => simp only [Reg.bits, onDragUpdate_lastRenderedValue]; rfl
      all_goals rfl
  | false =>
    rcases Nat.lt_or_ge s.touch.settleCount.toNat 3 with n | n
    · rw [effect_poll_noise n]
      cases r
      case state | settleCount => cases w
      all_goals rfl
    · rw [effect_poll_tapUp n]
      cases r
      case state | settleCount => cases w
      case capBtnValid | capBtnId | capSld | pressValid | pressId =>
        simp [Reg.writtenBy, isTapDown, isTapUp, isPoll, isPresent, isStepIn] at w; omega
      all_goals rfl

theorem dispatch_keeps_unwritten {s : State} (p : s.phase = .dispatch) (lx ly rx ry : Adc) (r : Reg)
    (w : r.writtenBy (.step lx ly rx ry) s = false) : r.bits (effect (.step lx ly rx ry) s) = r.bits s := by
  cases v : s.press.pressValid with
  | false =>
    rw [effect_dispatch_noPress p v]
    cases r
    case phase => cases w
    all_goals rfl
  | true =>
    rw [effect_dispatch_press p v]
    cases r
    case highlighted i => simp [Reg.bits, takePress_button, -Fin.getElem_fin]
    case pressValid | pressId | controlBit | selected | dirty => simp [Reg.writtenBy, isStepIn, p] at w
    case phase => cases w
    all_goals rfl

theorem frame_keeps_unwritten {s : State} (p : s.phase = .frame) (lx ly rx ry : Adc) (r : Reg)
    (w : r.writtenBy (.step lx ly rx ry) s = false) : r.bits (effect (.step lx ly rx ry) s) = r.bits s := by
  rcases Nat.lt_or_ge 781 s.tickAcc.toNat with d | d
  · rw [effect_frame_due p d]
    cases r
    case tickAcc => simp [Reg.writtenBy, isStepIn, p] at w
    all_goals simp only [Reg.bits, State.txAppend, State.idle]
  · rw [effect_frame_notDue p d]
    cases r
    case phase => cases w
    all_goals rfl

theorem render_keeps_unwritten {s : State} (p : s.phase = .render) (lx ly rx ry : Adc) (r : Reg)
    (w : r.writtenBy (.step lx ly rx ry) s = false) : r.bits (effect (.step lx ly rx ry) s) = r.bits s := by
  rw [effect_step_render p]
  cases r
  case selected i => simp only [Reg.bits, renderPhase_button, State.idle_buttons]
  case value j => simp only [Reg.bits, renderPhase_slider, State.idle_sliders]
  case lastRendered | highlighted | dirty | fullRedraw => simp [Reg.writtenBy, isStepIn, p] at w
  case phase => cases w
  all_goals simp [Reg.bits]

theorem effect_keeps_unwritten (i : Instr) (s : State) (r : Reg) (w : r.writtenBy i s = false) :
    r.bits (effect i s) = r.bits s := by
  cases i with
  | nop => cases r <;> rfl
  | tick =>
    cases r
    case tickAcc => cases w
    all_goals rfl
  | rxsoc byte =>
    cases r
    case remotePct => cases w
    all_goals rfl
  | batt adc =>
    cases r
    case localPct => cases w
    all_goals rfl
  | poll present x y => exact poll_keeps_unwritten present x y s r w
  | step lx ly rx ry =>
    cases p : s.phase with
    | dispatch => exact dispatch_keeps_unwritten p lx ly rx ry r w
    | frame => exact frame_keeps_unwritten p lx ly rx ry r w
    | render => exact render_keeps_unwritten p lx ly rx ry r w

/-! R45: the estimates. -/

/-- Every percentage a BATT can fold is within 16 bits (R46), so the local estimate does not rise. -/
theorem effect_localPct_le (i : Instr) (s : State) : (effect i s).localPct.toInt ≤ s.localPct.toInt := by
  cases i with
  | batt adc => exact foldEstimate_le _ _ (by have := localPercent_bounds adc; omega)
  | nop | tick | poll | rxsoc | step =>
    exact le_of_eq (congrArg BitVec.toInt (BitVec.eq_of_toNat_eq (effect_keeps_unwritten _ s .localPct rfl)))

theorem effect_remotePct_le (i : Instr) (s : State) : (effect i s).remotePct.toInt ≤ s.remotePct.toInt := by
  cases i with
  | rxsoc byte => exact foldEstimate_le _ _ (by simp only [remotePercent]; omega)
  | nop | tick | poll | batt | step =>
    exact le_of_eq (congrArg BitVec.toInt (BitVec.eq_of_toNat_eq (effect_keeps_unwritten _ s .remotePct rfl)))

/-- Settles O23: only BATT and RXSOC write an estimate, and the monotone rule (R200) never stores a greater value. -/
theorem estimatesNeverIncrease : Obligations.EstimatesNeverIncrease := by
  intro i s t h
  obtain rfl := exec_next_iff.1 h
  exact ⟨effect_localPct_le i s, effect_remotePct_le i s⟩

/-! The registers of a field, level output by level output, determine the field. -/

theorem phase_eq_of_bits {s t : State} (h : Reg.bits s .phase = Reg.bits t .phase) : s.phase = t.phase := by
  simp only [Reg.bits] at h
  cases p : s.phase <;> cases q : t.phase <;> simp_all [Phase.code]

theorem bool_eq_of_toNat {a b : Bool} (h : a.toNat = b.toNat) : a = b :=
  Function.LeftInverse.injective Bool.ofNat_toNat h

theorem capture_eq_of_bits {s t : State} (valid : Reg.bits s .capBtnValid = Reg.bits t .capBtnValid)
    (id : Reg.bits s .capBtnId = Reg.bits t .capBtnId)
    (sld : ∀ j, Reg.bits s (.capSld j) = Reg.bits t (.capSld j)) : s.capture = t.capture := by
  have sldEq : s.capture.capSld = t.capture.capSld :=
    Vector.ext fun j lt => bool_eq_of_toNat (sld ⟨j, lt⟩)
  calc s.capture = ⟨s.capture.capBtnValid, s.capture.capBtnId, s.capture.capSld⟩ := rfl
    _ = ⟨t.capture.capBtnValid, t.capture.capBtnId, t.capture.capSld⟩ := by
      rw [bool_eq_of_toNat valid, Fin.ext id, sldEq]

theorem press_eq_of_bits {s t : State} (valid : Reg.bits s .pressValid = Reg.bits t .pressValid)
    (id : Reg.bits s .pressId = Reg.bits t .pressId) : s.press = t.press := by
  calc s.press = ⟨s.press.pressValid, s.press.pressId⟩ := rfl
    _ = ⟨t.press.pressValid, t.press.pressId⟩ := by rw [bool_eq_of_toNat valid, Fin.ext id]

theorem controlBits_eq_of_bits {s t : State} (h : ∀ k, Reg.bits s (.controlBit k) = Reg.bits t (.controlBit k)) :
    s.controlBits = t.controlBits :=
  BitVec.eq_of_getLsbD_eq fun k lt => bool_eq_of_toNat (h ⟨k, lt⟩)

theorem slider_eq_of_bits {s t : State} {j : SliderId} (value : Reg.bits s (.value j) = Reg.bits t (.value j))
    (last : Reg.bits s (.lastRendered j) = Reg.bits t (.lastRendered j)) : s.sliders[j] = t.sliders[j] := by
  calc s.sliders[j] = ⟨s.sliders[j].value, s.sliders[j].lastRenderedValue⟩ := rfl
    _ = ⟨t.sliders[j].value, t.sliders[j].lastRenderedValue⟩ := by
      rw [BitVec.eq_of_toNat_eq value, BitVec.eq_of_toNat_eq last]

/-! Both columns of table R48: an operation's outputs and the registers it is listed for come out the same from two
states that agree on those registers. -/

/-- The two states agree on every register `i` is listed for in the first. -/
def AgreeOnListed (i : Instr) (s₁ s₂ : State) : Prop :=
  ∀ r : Reg, r.listedFor i s₁ = true → r.bits s₁ = r.bits s₂

/-- `i` shows the same outputs from both states and leaves the registers it is listed for equal. -/
def SameResult (i : Instr) (s₁ s₂ : State) : Prop :=
  (effect i s₁).out = (effect i s₂).out ∧
    ∀ r : Reg, r.listedFor i s₁ = true → r.bits (effect i s₁) = r.bits (effect i s₂)

theorem AgreeOnListed.capture_of_poll {present : Bool} {x y : U16} {s₁ s₂ : State}
    (agree : AgreeOnListed (.poll present x y) s₁ s₂) : s₁.capture = s₂.capture := by
  have listed (r : Reg) (rd : r.readBy (.poll present x y) s₁ = true) : r.bits s₁ = r.bits s₂ :=
    agree r (by simp [Reg.listedFor, rd])
  exact capture_eq_of_bits (listed _ rfl) (listed _ rfl) fun _ => listed _ rfl

theorem AgreeOnListed.settleCount_of_poll {present : Bool} {x y : U16} {s₁ s₂ : State}
    (agree : AgreeOnListed (.poll present x y) s₁ s₂) : s₁.touch.settleCount = s₂.touch.settleCount :=
  BitVec.eq_of_toNat_eq (agree .settleCount rfl)

theorem pollPresent_sameResult {x y : U16} {s₁ s₂ : State} (cfg : s₁.cfg = s₂.cfg)
    (agree : AgreeOnListed (.poll true x y) s₁ s₂) : SameResult (.poll true x y) s₁ s₂ := by
  have count := agree.settleCount_of_poll
  have cap := agree.capture_of_poll
  unfold SameResult
  rcases lt_trichotomy s₁.touch.settleCount.toNat 2 with n | n | n
  · have n := Nat.le_of_lt_succ n
    rw [effect_poll_settling n, effect_poll_settling (count ▸ n), count]
    refine ⟨rfl, fun r l => ?_⟩
    cases r
    case state | settleCount | x | y => rfl
    all_goals exact agree _ l
  · rw [effect_poll_tapDown n, effect_poll_tapDown (count ▸ n), count]
    refine ⟨rfl, fun r l => ?_⟩
    cases r
    case state | settleCount | x | y => rfl
    case capBtnValid | capBtnId | capSld => simp [Reg.bits, cfg]
    all_goals exact agree _ l
  · rw [effect_poll_drag n, effect_poll_drag (count ▸ n), count]
    refine ⟨rfl, fun r l => ?_⟩
    cases r
    case state | settleCount | x | y => rfl
    case value j =>
      have old : s₁.sliders[j].value = s₂.sliders[j].value := BitVec.eq_of_toNat_eq (agree _ l)
      simp [Reg.bits, onDragUpdate_value, cap, cfg, old, -Fin.getElem_fin]
    case lastRendered => simp [Reg.listedFor, Reg.writtenBy, Reg.readBy, isStepIn] at l
    all_goals exact agree _ l

theorem pollAbsent_sameResult {x y : U16} {s₁ s₂ : State} (cfg : s₁.cfg = s₂.cfg)
    (agree : AgreeOnListed (.poll false x y) s₁ s₂) : SameResult (.poll false x y) s₁ s₂ := by
  have count := agree.settleCount_of_poll
  have cap := agree.capture_of_poll
  unfold SameResult
  rcases Nat.lt_or_ge s₁.touch.settleCount.toNat 3 with n | n
  · rw [effect_poll_noise n, effect_poll_noise (count ▸ n)]
    refine ⟨rfl, fun r l => ?_⟩
    cases r
    case state | settleCount => rfl
    all_goals exact agree _ l
  · have up : isTapUp (.poll false x y) s₁ = true := by simp [isTapUp, isPoll, isPresent, n]
    have xEq : s₁.touch.x = s₂.touch.x :=
      BitVec.eq_of_toNat_eq (agree .x (by simp [Reg.listedFor, Reg.readBy, up]))
    have yEq : s₁.touch.y = s₂.touch.y :=
      BitVec.eq_of_toNat_eq (agree .y (by simp [Reg.listedFor, Reg.readBy, up]))
    have press : s₁.press = s₂.press :=
      press_eq_of_bits (agree _ (by simp [Reg.listedFor, Reg.writtenBy, up]))
        (agree _ (by simp [Reg.listedFor, Reg.writtenBy, up]))
    rw [effect_poll_tapUp n, effect_poll_tapUp (count ▸ n)]
    refine ⟨by simp [xEq, yEq], fun r l => ?_⟩
    cases r
    case state | settleCount | capBtnValid | capBtnId | capSld => rfl
    case pressValid | pressId => simp [Reg.bits, pressAccepted, cap, cfg, xEq, yEq, press]
    all_goals exact agree _ l

theorem AgreeOnListed.phase_of_step {lx ly rx ry : Adc} {s₁ s₂ : State}
    (agree : AgreeOnListed (.step lx ly rx ry) s₁ s₂) : s₁.phase = s₂.phase :=
  phase_eq_of_bits (agree .phase rfl)

theorem dispatch_sameResult {lx ly rx ry : Adc} {s₁ s₂ : State} (p : s₁.phase = .dispatch)
    (agree : AgreeOnListed (.step lx ly rx ry) s₁ s₂) : SameResult (.step lx ly rx ry) s₁ s₂ := by
  have p₂ := agree.phase_of_step ▸ p
  have inDispatch : isStepIn .dispatch (.step lx ly rx ry) s₁ = true := by simp [isStepIn, p]
  have press : s₁.press = s₂.press :=
    press_eq_of_bits (agree _ (by simp [Reg.listedFor, Reg.readBy, inDispatch]))
      (agree _ (by simp [Reg.listedFor, Reg.readBy, inDispatch]))
  have control : s₁.controlBits = s₂.controlBits :=
    controlBits_eq_of_bits fun _ => agree _ (by simp [Reg.listedFor, Reg.writtenBy, inDispatch])
  unfold SameResult
  cases v : s₁.press.pressValid with
  | false =>
    rw [effect_dispatch_noPress p v, effect_dispatch_noPress p₂ (press ▸ v)]
    refine ⟨rfl, fun r l => ?_⟩
    cases r
    case phase => rfl
    all_goals exact agree _ l
  | true =>
    rw [effect_dispatch_press p v, effect_dispatch_press p₂ (press ▸ v)]
    refine ⟨by simp [press], fun r l => ?_⟩
    cases r
    case phase | pressValid | pressId => rfl
    case controlBit => simp [Reg.bits, press, control]
    case selected i =>
      have old : s₁.buttons[i].selected = s₂.buttons[i].selected := bool_eq_of_toNat (agree _ l)
      simp [Reg.bits, takePress_button, selectOne_selected, press, old, -Fin.getElem_fin]
    case dirty i =>
      have old : s₁.buttons[i].dirty = s₂.buttons[i].dirty := bool_eq_of_toNat (agree _ l)
      simp [Reg.bits, takePress_button, selectOne_dirty, press, old, -Fin.getElem_fin]
    case highlighted => simp [Reg.listedFor, Reg.writtenBy, Reg.readBy, isStepIn, p] at l
    all_goals exact agree _ l

theorem frame_sameResult {lx ly rx ry : Adc} {s₁ s₂ : State} (p : s₁.phase = .frame)
    (agree : AgreeOnListed (.step lx ly rx ry) s₁ s₂) : SameResult (.step lx ly rx ry) s₁ s₂ := by
  have p₂ := agree.phase_of_step ▸ p
  have inFrame : isStepIn .frame (.step lx ly rx ry) s₁ = true := by simp [isStepIn, p]
  have acc : s₁.tickAcc = s₂.tickAcc :=
    BitVec.eq_of_toNat_eq (agree .tickAcc (by simp [Reg.listedFor, Reg.readBy, inFrame]))
  have control : s₁.controlBits = s₂.controlBits :=
    controlBits_eq_of_bits fun _ => agree _ (by simp [Reg.listedFor, Reg.readBy, inFrame])
  unfold SameResult
  rcases Nat.lt_or_ge 781 s₁.tickAcc.toNat with d | d
  · rw [effect_frame_due p d, effect_frame_due p₂ (acc ▸ d)]
    refine ⟨by simp [frameNow, control], fun r l => ?_⟩
    have old := agree r l
    cases r
    case tickAcc => simp [Reg.bits, acc]
    all_goals simpa [Reg.bits] using old
  · rw [effect_frame_notDue p d, effect_frame_notDue p₂ (acc ▸ d)]
    refine ⟨rfl, fun r l => ?_⟩
    cases r
    case phase => rfl
    all_goals exact agree _ l

/-- The two states agree on the configuration and on everything a render pass reads (table R48, R220, R221). -/
structure SameRenderInputs (s₁ s₂ : State) : Prop where
  cfg         : s₁.cfg = s₂.cfg
  x           : s₁.touch.x = s₂.touch.x
  y           : s₁.touch.y = s₂.touch.y
  capture     : s₁.capture = s₂.capture
  fullRedraw  : s₁.fullRedraw = s₂.fullRedraw
  localPct    : s₁.localPct = s₂.localPct
  remotePct   : s₁.remotePct = s₂.remotePct
  highlighted : ∀ i : ButtonId, s₁.buttons[i].highlighted = s₂.buttons[i].highlighted
  dirty       : ∀ i : ButtonId, s₁.buttons[i].dirty = s₂.buttons[i].dirty
  slider      : ∀ j : SliderId, s₁.sliders[j] = s₂.sliders[j]

theorem AgreeOnListed.sameRenderInputs {lx ly rx ry : Adc} {s₁ s₂ : State} (cfg : s₁.cfg = s₂.cfg)
    (p : s₁.phase = .render) (agree : AgreeOnListed (.step lx ly rx ry) s₁ s₂) : SameRenderInputs s₁ s₂ := by
  have inRender : isStepIn .render (.step lx ly rx ry) s₁ = true := by simp [isStepIn, p]
  have read (r : Reg) (rd : r.readBy (.step lx ly rx ry) s₁ = true) : r.bits s₁ = r.bits s₂ :=
    agree r (by simp [Reg.listedFor, rd])
  exact {
    cfg := cfg
    x := BitVec.eq_of_toNat_eq (read .x (by simp [Reg.readBy, inRender]))
    y := BitVec.eq_of_toNat_eq (read .y (by simp [Reg.readBy, inRender]))
    capture := capture_eq_of_bits (read _ inRender) (read _ inRender) fun _ => read _ inRender
    fullRedraw := bool_eq_of_toNat (read .fullRedraw inRender)
    localPct := BitVec.eq_of_toNat_eq (read .localPct (by simp [Reg.readBy, inRender]))
    remotePct := BitVec.eq_of_toNat_eq (read .remotePct (by simp [Reg.readBy, inRender]))
    highlighted := fun i => bool_eq_of_toNat (read (.highlighted i) inRender)
    dirty := fun i => bool_eq_of_toNat (read (.dirty i) inRender)
    slider := fun _ => slider_eq_of_bits (read _ inRender) (read _ inRender) }

namespace SameRenderInputs

variable {s₁ s₂ : State} (same : SameRenderInputs s₁ s₂)
include same

theorem idle : SameRenderInputs s₁.idle s₂.idle := { same with }

theorem highlightNow_eq (i : ButtonId) : highlightNow s₁ i = highlightNow s₂ i := by
  simp only [highlightNow, same.capture, same.cfg, same.x, same.y]

theorem drawsButton_eq (i : ButtonId) :
    drawsButton (refreshHighlight s₁) i = drawsButton (refreshHighlight s₂) i := by
  simp only [drawsButton, refreshHighlight_cfg, refreshHighlight_button, refreshHighlight_fullRedraw, same.cfg,
    same.dirty, same.highlightNow_eq, same.highlighted, same.fullRedraw]

theorem drawsSlider_eq (j : SliderId) : drawsSlider s₁ j = drawsSlider s₂ j := by
  simp only [drawsSlider, same.cfg, same.slider, same.fullRedraw]

theorem drawRecord_eq : drawRecord (refreshHighlight s₁) = drawRecord (refreshHighlight s₂) := by
  have slider (j : SliderId) : drawsSlider (refreshHighlight s₁) j = drawsSlider (refreshHighlight s₂) j :=
    same.drawsSlider_eq j
  simp only [drawRecord, same.drawsButton_eq, slider, refreshHighlight_fullRedraw, refreshHighlight_localPct,
    refreshHighlight_remotePct, same.fullRedraw, same.localPct, same.remotePct]

theorem renderPhase_highlighted_eq (i : ButtonId) :
    (renderPhase s₁).buttons[i].highlighted = (renderPhase s₂).buttons[i].highlighted := by
  simp only [renderPhase_button, same.highlightNow_eq]

theorem renderPhase_dirty_eq (i : ButtonId) :
    (renderPhase s₁).buttons[i].dirty = (renderPhase s₂).buttons[i].dirty := by
  simp only [renderPhase_button, same.dirty, same.highlightNow_eq, same.highlighted, same.drawsButton_eq]

theorem renderPhase_slider_eq (j : SliderId) : (renderPhase s₁).sliders[j] = (renderPhase s₂).sliders[j] := by
  simp only [renderPhase_slider, same.slider, same.drawsSlider_eq]

end SameRenderInputs

theorem render_sameResult {lx ly rx ry : Adc} {s₁ s₂ : State} (cfg : s₁.cfg = s₂.cfg) (p : s₁.phase = .render)
    (agree : AgreeOnListed (.step lx ly rx ry) s₁ s₂) : SameResult (.step lx ly rx ry) s₁ s₂ := by
  have p₂ := agree.phase_of_step ▸ p
  have same := (agree.sameRenderInputs cfg p).idle
  unfold SameResult
  rw [effect_step_render p, effect_step_render p₂]
  refine ⟨by simp [same.drawRecord_eq], fun r l => ?_⟩
  have old := agree r l
  cases r
  case phase | fullRedraw => rfl
  case highlighted i => exact congrArg Bool.toNat (same.renderPhase_highlighted_eq i)
  case dirty i => exact congrArg Bool.toNat (same.renderPhase_dirty_eq i)
  case value j => exact congrArg (·.value.toNat) (same.renderPhase_slider_eq j)
  case lastRendered j => exact congrArg (·.lastRenderedValue.toNat) (same.renderPhase_slider_eq j)
  case selected => simp [Reg.listedFor, Reg.writtenBy, Reg.readBy, isStepIn, p] at l
  all_goals simpa [Reg.bits] using old

theorem effect_sameResult (i : Instr) {s₁ s₂ : State} (cfg : s₁.cfg = s₂.cfg) (agree : AgreeOnListed i s₁ s₂) :
    SameResult i s₁ s₂ := by
  cases i with
  | nop => exact ⟨rfl, fun r l => by cases r <;> cases l⟩
  | tick =>
    refine ⟨rfl, fun r l => ?_⟩
    cases r
    case tickAcc =>
      have old := BitVec.eq_of_toNat_eq (agree .tickAcc l)
      simp [Reg.bits, effect, old]
    all_goals cases l
  | rxsoc byte =>
    refine ⟨rfl, fun r l => ?_⟩
    cases r
    case remotePct =>
      have old := BitVec.eq_of_toNat_eq (agree .remotePct l)
      simp [Reg.bits, effect, old]
    all_goals cases l
  | batt adc =>
    refine ⟨rfl, fun r l => ?_⟩
    cases r
    case localPct =>
      have old := BitVec.eq_of_toNat_eq (agree .localPct l)
      simp [Reg.bits, effect, old]
    all_goals cases l
  | poll present x y =>
    cases present with
    | true => exact pollPresent_sameResult cfg agree
    | false => exact pollAbsent_sameResult cfg agree
  | step lx ly rx ry =>
    cases p : s₁.phase with
    | dispatch => exact dispatch_sameResult p agree
    | frame => exact frame_sameResult p agree
    | render => exact render_sameResult cfg p agree

/-- Settles O39: `effect_keeps_unwritten` is the column of writers, `effect_sameResult` both columns together. -/
theorem operationsTouchOnlyListedRegisters : Obligations.OperationsTouchOnlyListedRegisters := by
  refine ⟨fun i s t h => ?_, fun i s₁ s₂ t₁ t₂ cfg agree h₁ h₂ => ?_⟩
  · obtain rfl := exec_next_iff.1 h
    exact ⟨effect_cfg i s, effect_inputs i s, effect_keeps_unwritten i s⟩
  · obtain rfl := exec_next_iff.1 h₁
    obtain rfl := exec_next_iff.1 h₂
    exact effect_sameResult i cfg agree

end Sys2Proof.Machine

namespace Sys2Proof

/-! The decoder by operation code (R81 to R88). -/

theorem decode_nop {w : OpWord} (c : opcodeOf w = 0) : decode w = .ok .nop := by
  simp [decode, c]

theorem decode_tick {w : OpWord} (c : opcodeOf w = 1) : decode w = .ok .tick := by
  simp [decode, c]

theorem decode_poll {w : OpWord} (c : opcodeOf w = 2) :
    decode w = .ok (.poll (w.getLsbD 32) (w.extractLsb' 16 16) (w.extractLsb' 0 16)) := by
  simp [decode, c]

theorem decode_rxsoc {w : OpWord} (c : opcodeOf w = 3) : decode w = .ok (.rxsoc (w.extractLsb' 0 8)) := by
  simp [decode, c]

theorem decode_batt {w : OpWord} (c : opcodeOf w = 4) : decode w = .ok (.batt (w.extractLsb' 0 10)) := by
  simp [decode, c]

theorem decode_step {w : OpWord} (c : opcodeOf w = 5) :
    decode w =
      .ok (.step (w.extractLsb' 0 10) (w.extractLsb' 10 10) (w.extractLsb' 20 10) (w.extractLsb' 30 10)) := by
  simp [decode, c]

theorem decode_reserved {w : OpWord} (c : 6 ≤ (opcodeOf w).toNat) :
    decode w = .error (.reserved (opcodeOf w)) := by
  rcases decode_cases w with ⟨o, -⟩ | ⟨o, -⟩ | ⟨o, -⟩ | ⟨o, -⟩ | ⟨o, -⟩ | ⟨o, -⟩ | ⟨-, e⟩
  case inr.inr.inr.inr.inr.inr => exact e
  all_goals simp [o] at c

/-- The operation code read by arithmetic on the word (R80). -/
theorem opcodeOf_eq_of_div {w : OpWord} {n : Nat} (small : n < 16) (c : w.toNat / 2 ^ 44 = n) :
    opcodeOf w = BitVec.ofNat 4 n :=
  BitVec.eq_of_toNat_eq (by rw [opcodeOf_toNat, c, BitVec.toNat_ofNat, Nat.mod_eq_of_lt small])

theorem opcode_of_decode {w : OpWord} {i : Instr} (h : decode w = .ok i) : i.opcode = opcodeOf w := by
  rcases decode_cases w with ⟨c, e⟩ | ⟨c, e⟩ | ⟨c, e⟩ | ⟨c, e⟩ | ⟨c, e⟩ | ⟨c, e⟩ | ⟨-, e⟩
  case inr.inr.inr.inr.inr.inr => simp [e] at h
  all_goals
    rw [e] at h
    obtain rfl := Except.ok.inj h
    exact c.symm

/-! The used bits of a word determine what it decodes to (R87). -/

/-- A mask that is all ones over a field keeps the field. -/
theorem extractLsb'_and_of_allOnes {start len : Nat} {m : OpWord} (ones : m.extractLsb' start len = BitVec.allOnes len)
    (w : OpWord) : (w &&& m).extractLsb' start len = w.extractLsb' start len := by
  rw [BitVec.extractLsb'_and, ones, BitVec.and_allOnes]

theorem usedBits_code : ∀ c : OpCode, (usedBits c).extractLsb' 44 4 = BitVec.allOnes 4 := by decide

@[simp] theorem opcodeOf_and_usedBits (w : OpWord) (c : OpCode) : opcodeOf (w &&& usedBits c) = opcodeOf w :=
  extractLsb'_and_of_allOnes (usedBits_code c) w

/-- The decoder reads no bit outside the code and the fields of the code's format. -/
theorem decode_and_usedBits (w : OpWord) : decode (w &&& usedBits (opcodeOf w)) = decode w := by
  have code := opcodeOf_and_usedBits w (opcodeOf w)
  rcases decode_cases w with ⟨c, e⟩ | ⟨c, e⟩ | ⟨c, e⟩ | ⟨c, e⟩ | ⟨c, e⟩ | ⟨c, e⟩ | ⟨c, e⟩ <;> rw [e]
  · exact decode_nop (code.trans c)
  · exact decode_tick (code.trans c)
  · have present : (w &&& usedBits 2).getLsbD 32 = w.getLsbD 32 := by
      rw [BitVec.getLsbD_and, show (usedBits 2).getLsbD 32 = true by decide, Bool.and_true]
    rw [decode_poll (code.trans c), c, present, extractLsb'_and_of_allOnes (by decide),
      extractLsb'_and_of_allOnes (by decide)]
  · rw [decode_rxsoc (code.trans c), c, extractLsb'_and_of_allOnes (by decide)]
  · rw [decode_batt (code.trans c), c, extractLsb'_and_of_allOnes (by decide)]
  · rw [decode_step (code.trans c), c, extractLsb'_and_of_allOnes (by decide), extractLsb'_and_of_allOnes (by decide),
      extractLsb'_and_of_allOnes (by decide), extractLsb'_and_of_allOnes (by decide)]
  · rw [decode_reserved (by rwa [code]), code]

theorem append_and_append_eq_zero {m n : Nat} {a c : BitVec m} {b d : BitVec n} (high : a &&& c = 0#m)
    (low : b &&& d = 0#n) : (a ++ b) &&& (c ++ d) = 0#(m + n) := by
  rw [BitVec.and_append, high, low, BitVec.zero_append_zero]

/-- The encoder writes the ignored bits 0: field by field, the word or the complement of its used bits is 0. -/
theorem encode_and_not_usedBits (i : Instr) : encode i &&& ~~~usedBits i.opcode = 0 := by
  cases i with
  | nop => decide
  | tick => decide
  | poll present x y =>
    have ignored : ~~~usedBits 2#4 = 0#4 ++ (BitVec.allOnes 11 ++ (0#1 ++ (0#16 ++ 0#16))) := by decide
    rw [Instr.opcode, ignored]
    exact append_and_append_eq_zero BitVec.and_zero (append_and_append_eq_zero BitVec.zero_and
      (append_and_append_eq_zero BitVec.and_zero (append_and_append_eq_zero BitVec.and_zero BitVec.and_zero)))
  | rxsoc byte =>
    have ignored : ~~~usedBits 3#4 = 0#4 ++ (BitVec.allOnes 36 ++ 0#8) := by decide
    rw [Instr.opcode, ignored]
    exact append_and_append_eq_zero BitVec.and_zero (append_and_append_eq_zero BitVec.zero_and BitVec.and_zero)
  | batt adc =>
    have ignored : ~~~usedBits 4#4 = 0#4 ++ (BitVec.allOnes 34 ++ 0#10) := by decide
    rw [Instr.opcode, ignored]
    exact append_and_append_eq_zero BitVec.and_zero (append_and_append_eq_zero BitVec.zero_and BitVec.and_zero)
  | step lx ly rx ry =>
    have ignored : ~~~usedBits 5#4 = 0#4 ++ (BitVec.allOnes 4 ++ 0#40) := by decide
    rw [Instr.opcode, ignored]
    exact append_and_append_eq_zero BitVec.and_zero (append_and_append_eq_zero BitVec.zero_and BitVec.and_zero)

/-- Settles O2: masking a word with its used bits changes neither its code nor what it decodes to. -/
theorem ignoredBitsHaveNoEffect : Obligations.IgnoredBitsHaveNoEffect := by
  refine ⟨fun w v same => ?_, fun w i h => opcode_of_decode h, encode_and_not_usedBits⟩
  have code : opcodeOf w = opcodeOf v := by
    rw [← opcodeOf_and_usedBits w (opcodeOf w), same, opcodeOf_and_usedBits]
  calc decode w = decode (w &&& usedBits (opcodeOf w)) := (decode_and_usedBits w).symm
    _ = decode (v &&& usedBits (opcodeOf v)) := by rw [same, code]
    _ = decode v := decode_and_usedBits v

/-! The operand fields by arithmetic on the word (R82 to R86). -/

theorem field_toNat (w : OpWord) (start len : Nat) :
    (w.extractLsb' start len).toNat = w.toNat / 2 ^ start % 2 ^ len := by
  rw [BitVec.extractLsb'_toNat, Nat.shiftRight_eq_div_pow]

theorem lowField_toNat (w : OpWord) (len : Nat) : (w.extractLsb' 0 len).toNat = w.toNat % 2 ^ len := by
  rw [field_toNat, pow_zero, Nat.div_one]

end Sys2Proof

namespace Sys2Proof.Machine

/-- A STEP uses its readings only to emit a frame (R86, R216). -/
theorem effect_step_ignores_readings {s : State} (quiet : ¬ (s.phase = .frame ∧ 781 < s.tickAcc.toNat))
    (lx ly rx ry lx' ly' rx' ry' : Adc) :
    effect (.step lx ly rx ry) s = effect (.step lx' ly' rx' ry') s := by
  cases p : s.phase with
  | dispatch => rw [effect_step_dispatch p, effect_step_dispatch p]
  | frame =>
    have notDue : s.tickAcc.toNat ≤ 781 := Nat.not_lt.1 fun d => quiet ⟨p, d⟩
    rw [effect_frame_notDue p notDue, effect_frame_notDue p notDue]
  | render => rw [effect_step_render p, effect_step_render p]

/-- Settles O3: the decoder's equation for each code, its fields read as quotients and remainders. -/
theorem eachFormatReadsItsFields : Obligations.EachFormatReadsItsFields := by
  refine ⟨fun w c => ?_, fun w c => ?_, fun w c => ?_, fun w c => ?_, fun w c => ?_, fun w c => ?_,
    fun s x y x' y' => rfl, fun s lx ly rx ry lx' ly' rx' ry' quiet => ?_⟩
  · exact decode_nop (opcodeOf_eq_of_div (by decide) c)
  · exact decode_tick (opcodeOf_eq_of_div (by decide) c)
  · exact ⟨_, _, _, decode_poll (opcodeOf_eq_of_div (by decide) c), Nat.toNat_testBit _ _, field_toNat w 16 16,
      lowField_toNat w 16⟩
  · exact ⟨_, decode_rxsoc (opcodeOf_eq_of_div (by decide) c), lowField_toNat w 8⟩
  · exact ⟨_, decode_batt (opcodeOf_eq_of_div (by decide) c), lowField_toNat w 10⟩
  · exact ⟨_, _, _, _, decode_step (opcodeOf_eq_of_div (by decide) c), lowField_toNat w 10, field_toNat w 10 10,
      field_toNat w 20 10, field_toNat w 30 10⟩
  · rw [exec_eq_effect, exec_eq_effect, effect_step_ignores_readings quiet lx ly rx ry lx' ly' rx' ry']

/-! What an operation shows at the output ports: the event of a POLL, the bytes of a DISPATCH or FRAME phase, the draw
record of a RENDER phase, or nothing (R90, R99, R100). -/

theorem effect_poll_present_reports (x y : U16) (s : State) :
    ∃ e, (e = .none ∨ e = .tapDown x y ∨ e = .dragUpdate x y) ∧ Reports e s (effect (.poll true x y) s) := by
  rcases lt_trichotomy s.touch.settleCount.toNat 2 with n | n | n
  · rw [effect_poll_settling (Nat.le_of_lt_succ n)]
    exact ⟨.none, .inl rfl, rfl, rfl⟩
  · rw [effect_poll_tapDown n]
    exact ⟨.tapDown x y, .inr (.inl rfl), rfl, rfl⟩
  · rw [effect_poll_drag n]
    exact ⟨.dragUpdate x y, .inr (.inr rfl), rfl, rfl⟩

theorem effect_poll_absent_reports (x y : U16) (s : State) :
    ∃ e, (e = .none ∨ e = .tapUp s.touch.x s.touch.y) ∧ Reports e s (effect (.poll false x y) s) := by
  rcases Nat.lt_or_ge s.touch.settleCount.toNat 3 with n | n
  · rw [effect_poll_noise n]
    exact ⟨.none, .inl rfl, rfl, rfl⟩
  · rw [effect_poll_tapUp n]
    exact ⟨.tapUp s.touch.x s.touch.y, .inr rfl, rfl, rfl⟩

theorem effect_poll_reports (present : Bool) (x y : U16) (s : State) :
    ∃ e, Reports e s (effect (.poll present x y) s) := by
  cases present with
  | true => exact (effect_poll_present_reports x y s).imp fun _ h => h.2
  | false => exact (effect_poll_absent_reports x y s).imp fun _ h => h.2

/-- An absent sample leaves the session coordinate (R23). -/
theorem effect_poll_absent_coord (x y : U16) (s : State) :
    (effect (.poll false x y) s).touch.x = s.touch.x ∧ (effect (.poll false x y) s).touch.y = s.touch.y :=
  ⟨BitVec.eq_of_toNat_eq (effect_keeps_unwritten _ s .x rfl),
    BitVec.eq_of_toNat_eq (effect_keeps_unwritten _ s .y rfl)⟩

theorem effect_dispatch_press_sends {s : State} (p : s.phase = .dispatch) (v : s.press.pressValid = true)
    (lx ly rx ry : Adc) :
    Sends dispatchTable[s.press.pressId].command.toList s (effect (.step lx ly rx ry) s) := by
  rw [effect_dispatch_press p v]
  exact ⟨rfl, rfl⟩

theorem effect_frame_due_sends {s : State} (p : s.phase = .frame) (d : 781 < s.tickAcc.toNat) (lx ly rx ry : Adc) :
    Sends (frameNow lx ly rx ry s) s (effect (.step lx ly rx ry) s) := by
  rw [effect_frame_due p d]
  exact ⟨rfl, rfl⟩

/-- The outputs and the stream after an operation, by what it sends. -/
theorem effect_out_cases (i : Instr) (s : State) :
    (∃ present x y e, i = .poll present x y ∧ Reports e s (effect i s)) ∨
    (∃ lx ly rx ry, i = .step lx ly rx ry ∧ s.phase = .dispatch ∧
      Sends dispatchTable[s.press.pressId].command.toList s (effect i s)) ∨
    (∃ lx ly rx ry, i = .step lx ly rx ry ∧ s.phase = .frame ∧ Sends (frameNow lx ly rx ry s) s (effect i s)) ∨
    (∃ lx ly rx ry, i = .step lx ly rx ry ∧ s.phase = .render ∧
      (effect i s).out = { Outputs.idle with draw := some (drawRecord (refreshHighlight s.idle)) } ∧
      (effect i s).tx = s.tx) ∨
    (isStepIn .render i s = false ∧ Silent s (effect i s)) := by
  cases i with
  | nop | tick | rxsoc | batt => exact .inr (.inr (.inr (.inr ⟨rfl, rfl, rfl⟩)))
  | poll present x y =>
    obtain ⟨e, r⟩ := effect_poll_reports present x y s
    exact .inl ⟨present, x, y, e, rfl, r⟩
  | step lx ly rx ry =>
    cases p : s.phase with
    | dispatch =>
      cases v : s.press.pressValid with
      | true => exact .inr (.inl ⟨lx, ly, rx, ry, rfl, rfl, effect_dispatch_press_sends p v lx ly rx ry⟩)
      | false =>
        rw [effect_dispatch_noPress p v]
        exact .inr (.inr (.inr (.inr ⟨by simp [isStepIn, p], rfl, rfl⟩)))
    | frame =>
      rcases Nat.lt_or_ge 781 s.tickAcc.toNat with d | d
      · exact .inr (.inr (.inl ⟨lx, ly, rx, ry, rfl, rfl, effect_frame_due_sends p d lx ly rx ry⟩))
      · rw [effect_frame_notDue p d]
        exact .inr (.inr (.inr (.inr ⟨by simp [isStepIn, p], rfl, rfl⟩)))
    | render =>
      rw [effect_step_render p]
      exact .inr (.inr (.inr (.inl ⟨lx, ly, rx, ry, rfl, rfl, renderPhase_out _, renderPhase_tx _⟩)))

/-! The transmit port (R100). -/

@[simp] theorem packBytes_cons (b : Byte) (bytes : List Byte) :
    packBytes (b :: bytes) = (packBytes bytes <<< 8) ||| b.setWidth 56 := rfl

/-- The lowest byte of the port is the first one sent. -/
theorem packBytes_cons_low (b : Byte) (bytes : List Byte) : (packBytes (b :: bytes)).extractLsb' 0 8 = b := by
  ext n lt
  have inPort : n < 56 := by omega
  simp [lt, inPort]

/-- The bytes after the first stand one place higher. -/
theorem packBytes_cons_high (b : Byte) (bytes : List Byte) {k : Nat} (lt : k + 1 < 7) :
    (packBytes (b :: bytes)).extractLsb' (8 * (k + 1)) 8 = (packBytes bytes).extractLsb' (8 * k) 8 := by
  ext n small
  have place : 8 * (k + 1) + n - 8 = 8 * k + n := by omega
  have inPort : 8 * (k + 1) + n < 56 := by omega
  have above : b.getLsbD (8 * (k + 1) + n) = false := BitVec.getLsbD_of_ge _ _ (by omega)
  have shifted : ¬ 8 * (k + 1) + n < 8 := by omega
  rw [BitVec.getElem_extractLsb', BitVec.getElem_extractLsb', packBytes_cons, BitVec.getLsbD_or,
    BitVec.getLsbD_shiftLeft, BitVec.getLsbD_setWidth, above, place]
  simp [inPort, shifted]

/-- Byte `k` sent is in bits [8k+7:8k] of the port. -/
theorem getElem?_eq_packBytes_extract (bytes : List Byte) {k : Nat} (sent : k < bytes.length) (lt : k < 7) :
    bytes[k]? = some ((packBytes bytes).extractLsb' (8 * k) 8) := by
  induction bytes generalizing k with
  | nil => cases sent
  | cons b bytes ih =>
    cases k with
    | zero => rw [List.getElem?_cons_zero, Nat.mul_zero, packBytes_cons_low]
    | succ k =>
      rw [List.getElem?_cons_succ, packBytes_cons_high b bytes lt]
      exact ih (Nat.lt_of_succ_lt_succ sent) (by omega)

/-- Only the eye buttons have a command letter (R163, R164). -/
theorem command_cases : ∀ i : ButtonId, dispatchTable[i].command.toList = [] ∨
    (10 ≤ i.val ∧ ∃ b ∈ [0x72#8, 0x67#8, 0x62#8], dispatchTable[i].command.toList = [b]) := by decide

theorem ports_of_no_bytes {t : State} (e : t.out.tx = []) : t.ports.txLen = 0 ∧ t.ports.txBytes = 0 := by
  simp [State.ports, Outputs.ports, e, packBytes]

theorem ports_of_one_byte {t : State} {b : Byte} (e : t.out.tx = [b]) :
    t.ports.txLen = 1 ∧ t.ports.txBytes.extractLsb' 0 8 = b := by
  simp only [State.ports, Outputs.ports, e]
  exact ⟨rfl, packBytes_cons_low b []⟩

theorem ports_of_seven_bytes {t : State} (e : t.out.tx.length = 7) :
    t.ports.txLen = 7 ∧ ∀ k < 7, t.out.tx[k]? = some (t.ports.txBytes.extractLsb' (8 * k) 8) := by
  refine ⟨?_, fun k lt => getElem?_eq_packBytes_extract t.out.tx (by omega) lt⟩
  simp only [State.ports, Outputs.ports, e]
  rfl

/-- Settles O37: an operation sends nothing, a press's command or a frame, and the port packs what was sent. -/
theorem transmitPortShowsTheBytes : Obligations.TransmitPortShowsTheBytes := by
  intro i s t h
  obtain rfl := exec_next_iff.1 h
  rcases effect_out_cases i s with ⟨_, _, _, e, -, out, tx⟩ | ⟨lx, ly, rx, ry, rfl, p, out, tx⟩ |
    ⟨lx, ly, rx, ry, rfl, p, out, tx⟩ | ⟨_, _, _, _, -, -, out, tx⟩ | ⟨-, out, tx⟩
  case inr.inl =>
    refine ⟨by rw [tx, out], ?_⟩
    rcases command_cases s.press.pressId with noLetter | ⟨eye, b, letter, one⟩
    · have sent := (congrArg Outputs.tx out).trans noLetter
      exact .inl ⟨sent, ports_of_no_bytes sent⟩
    · have sent := (congrArg Outputs.tx out).trans one
      obtain ⟨len, low⟩ := ports_of_one_byte sent
      exact .inr (.inl ⟨by simp [isStepIn, p], len, eye, b, letter, sent, low⟩)
  case inr.inr.inl =>
    refine ⟨by rw [tx, out], .inr (.inr ?_)⟩
    have seven : (effect (.step lx ly rx ry) s).out.tx.length = 7 := by rw [out]; rfl
    obtain ⟨len, bytes⟩ := ports_of_seven_bytes seven
    exact ⟨by simp [isStepIn, p], len, seven, bytes⟩
  all_goals
    have empty : (effect i s).out.tx = [] := by simp [out]
    exact ⟨by rw [tx, empty, List.append_nil], .inl ⟨empty, ports_of_no_bytes empty⟩⟩

/-! A reserved code (R88). -/

theorem acceptWord_reserved {w : OpWord} (c : 6 ≤ (opcodeOf w).toNat) (s : State) :
    acceptWord w s = .refused (.reservedOpcode (opcodeOf w)) := by
  simp only [acceptWord, decode_reserved c]

/-- Every operation starts from idle outputs, so what the ports showed before is lost. -/
theorem effect_opErr (i : Instr) (s : State) : effect i s.opErr = effect i s := by
  have idle : s.opErr.idle = s.idle := rfl
  have phase : s.opErr.phase = s.phase := rfl
  cases i with
  | nop | tick | rxsoc | batt => rfl
  | poll present x y => simp only [effect, idle]
  | step lx ly rx ry => simp only [effect, idle, phase]

theorem effect_err (i : Instr) (s : State) : (effect i s).out.err = false := by
  rcases effect_out_cases i s with ⟨_, _, _, _, -, out, -⟩ | ⟨_, _, _, _, -, -, out, -⟩ |
    ⟨_, _, _, _, -, -, out, -⟩ | ⟨_, _, _, _, -, -, out, -⟩ | ⟨-, out, -⟩ <;> simp [out]

/-- Settles O6: a reserved word decodes to its code by name, and `State.opErr` writes nothing but the outputs, which
no operation reads. -/
theorem reservedCodeIsRefused : Obligations.ReservedCodeIsRefused := by
  refine ⟨fun s w rest inputs c => ?_, fun s => ⟨fun r => ?_, rfl, rfl⟩, fun s i => ⟨?_, fun t h => ?_⟩⟩
  · rw [← opcodeOf_toNat] at c
    simp only [step, inputs, clockEdge]
    exact acceptWord_reserved c _
  · cases r <;> rfl
  · rw [exec_eq_effect, exec_eq_effect, effect_opErr]
  · obtain rfl := exec_next_iff.1 h
    exact effect_err i s

/-! The event port (R90). -/

theorem effect_event_of_not_poll {i : Instr} (notPoll : isPoll i = false) (s : State) :
    (effect i s).out.event = .none := by
  rcases effect_out_cases i s with ⟨_, _, _, _, rfl, -⟩ | ⟨_, _, _, _, -, -, out, -⟩ |
    ⟨_, _, _, _, -, -, out, -⟩ | ⟨_, _, _, _, -, -, out, -⟩ | ⟨-, out, -⟩
  case inl => cases notPoll
  all_goals simp [out]

theorem coord_of_tapDown_or_drag {present : Bool} {sx sy x y : U16} {s : State}
    (h : (effect (.poll present sx sy) s).out.event = .tapDown x y ∨
      (effect (.poll present sx sy) s).out.event = .dragUpdate x y) : x = sx ∧ y = sy := by
  cases present with
  | true =>
    obtain ⟨e, kind, out, -⟩ := effect_poll_present_reports sx sy s
    rw [out] at h
    rcases kind with rfl | rfl | rfl
    · simp at h
    all_goals simpa [eq_comm] using h
  | false =>
    obtain ⟨e, kind, out, -⟩ := effect_poll_absent_reports sx sy s
    rw [out] at h
    rcases kind with rfl | rfl <;> simp at h

theorem coord_of_tapUp {i : Instr} {s : State} {x y : U16} (h : (effect i s).out.event = .tapUp x y) :
    x = (effect i s).touch.x ∧ y = (effect i s).touch.y := by
  cases i with
  | nop | tick | rxsoc | batt | step => rw [effect_event_of_not_poll rfl] at h; cases h
  | poll present sx sy =>
    cases present with
    | true =>
      obtain ⟨e, kind, out, -⟩ := effect_poll_present_reports sx sy s
      rw [out] at h
      rcases kind with rfl | rfl | rfl <;> cases h
    | false =>
      obtain ⟨e, kind, out, -⟩ := effect_poll_absent_reports sx sy s
      obtain ⟨keepX, keepY⟩ := effect_poll_absent_coord sx sy s
      rw [out] at h
      rw [keepX, keepY]
      rcases kind with rfl | rfl <;> cases h
      exact ⟨rfl, rfl⟩

theorem ports_of_event {s : State} {e : TouchEvent} (h : s.out.event = e) :
    s.ports.evKind = e.kind ∧ s.ports.evX = e.coord.1 ∧ s.ports.evY = e.coord.2 := by
  subst h
  exact ⟨rfl, rfl, rfl⟩

/-- Settles O36: the codes are the port's definition; which event an operation reports is said by
`effect_out_cases` and the two lemmas on a POLL. -/
theorem eventPortCodes : Obligations.EventPortCodes := by
  refine ⟨fun s x y => ⟨ports_of_event, ports_of_event, ports_of_event, ports_of_event⟩, fun i s t notPoll h => ?_,
    fun present sx sy s t x y h event => ?_, fun i s t x y h event => ?_⟩
  · obtain rfl := exec_next_iff.1 h
    exact effect_event_of_not_poll notPoll s
  · obtain rfl := exec_next_iff.1 h
    exact coord_of_tapDown_or_drag event
  · obtain rfl := exec_next_iff.1 h
    exact coord_of_tapUp event

/-! The draw port (R99). -/

theorem ports_draw (s : State) : s.ports.draw = s.out.draw.map DrawRecord.port := rfl

theorem effect_draw_of_render {i : Instr} {s : State} (h : isStepIn .render i s = true) :
    (effect i s).out.draw = some (drawRecord (refreshHighlight s.idle)) := by
  cases i with
  | nop | tick | poll | rxsoc | batt => cases h
  | step => rw [effect_step_render (of_decide_eq_true h), renderPhase_out]

theorem effect_draw_of_not_render {i : Instr} {s : State} (h : isStepIn .render i s = false) :
    (effect i s).out.draw = none := by
  rcases effect_out_cases i s with ⟨_, _, _, _, -, out, -⟩ | ⟨_, _, _, _, -, -, out, -⟩ |
    ⟨_, _, _, _, -, -, out, -⟩ | ⟨_, _, _, _, rfl, p, -⟩ | ⟨-, out, -⟩
  case inr.inr.inr.inl => simp [isStepIn, p] at h
  all_goals simp [out]

/-- Settles O38: the port is the record bit by bit, and only a render pass shows one. -/
theorem drawPortShowsTheRecord : Obligations.DrawPortShowsTheRecord := by
  refine ⟨fun s d h => ?_, fun i s t h => ?_⟩
  · exact ⟨d.port, by rw [ports_draw, h]; rfl, rfl, maskOf_getLsbD d.btn, maskOf_getLsbD d.sld, rfl, rfl⟩
  · obtain rfl := exec_next_iff.1 h
    cases r : isStepIn .render i s with
    | true =>
      have shown := (ports_draw _).trans (congrArg (Option.map DrawRecord.port) (effect_draw_of_render r))
      exact ⟨by rw [Ports.drawValid, shown]; rfl, fun _ => ⟨_, shown, rfl, rfl, rfl⟩⟩
    | false =>
      refine ⟨?_, fun h => by cases h⟩
      rw [Ports.drawValid, ports_draw, effect_draw_of_not_render r]
      rfl

end Sys2Proof.Machine

namespace Sys2Proof.Machine

/-! The registers a POLL writes, by its case (table R48, R112 to R116), as the frames of the statements. -/

theorem OnlyWrites.of_writtenBy {i : Instr} {s : State} {written : List Reg}
    (listed : ∀ r : Reg, r.writtenBy i s = true → r ∈ written) : OnlyWrites written s (effect i s) :=
  ⟨fun r out => effect_keeps_unwritten i s r (Bool.eq_false_iff.2 fun w => out (listed r w)), effect_cfg i s,
    effect_inputs i s⟩

theorem OnlyWrites.mono {written more : List Reg} {s t : State} (h : OnlyWrites written s t)
    (sub : written ⊆ more) : OnlyWrites more s t := by
  obtain ⟨bits, cfg, inputs⟩ := h
  exact ⟨fun r out => bits r (mt (@sub r) out), cfg, inputs⟩

theorem OnlyWrites.trans {written : List Reg} {s t u : State} (st : OnlyWrites written s t)
    (tu : OnlyWrites written t u) : OnlyWrites written s u := by
  obtain ⟨bits, cfg, inputs⟩ := st
  obtain ⟨bits', cfg', inputs'⟩ := tu
  exact ⟨fun r out => (bits' r out).trans (bits r out), cfg'.trans cfg, inputs'.trans inputs⟩

/-- A register with the same level output before and after needs no place in the list. -/
theorem OnlyWrites.of_cons {r : Reg} {written : List Reg} {s t : State} (h : OnlyWrites (r :: written) s t)
    (same : r.bits t = r.bits s) : OnlyWrites written s t := by
  obtain ⟨bits, cfg, inputs⟩ := h
  refine ⟨fun q out => ?_, cfg, inputs⟩
  rcases eq_or_ne q r with rfl | ne
  · exact same
  · exact bits q (by simp [ne, out])

theorem slider_cases : ∀ j : SliderId, j = 0 ∨ j = 1 := by decide

theorem writtenBy_poll_present {x y : U16} {s : State} {r : Reg} (w : r.writtenBy (.poll true x y) s = true) :
    r ∈ [.state, .settleCount, .x, .y] ∨
    (s.touch.settleCount.toNat = 2 ∧ r ∈ [.capBtnValid, .capBtnId, .capSld 0, .capSld 1]) ∨
    (3 ≤ s.touch.settleCount.toNat ∧ r ∈ [.value 0, .value 1]) := by
  cases r
  case state | settleCount | x | y => simp
  case capBtnValid | capBtnId => simpa [Reg.writtenBy, isTapDown, isTapUp, isPresent] using w
  case capSld j => simpa [Reg.writtenBy, isTapDown, isTapUp, isPresent, slider_cases j] using w
  case value j => simpa [Reg.writtenBy, isDrag, isPresent, slider_cases j] using w
  all_goals cases w

theorem writtenBy_poll_absent {x y : U16} {s : State} {r : Reg} (w : r.writtenBy (.poll false x y) s = true) :
    r ∈ [.state, .settleCount] ∨
    (3 ≤ s.touch.settleCount.toNat ∧
      r ∈ [.capBtnValid, .capBtnId, .capSld 0, .capSld 1, .pressValid, .pressId]) := by
  cases r
  case state | settleCount => simp
  case capBtnValid | capBtnId | pressValid | pressId =>
    simpa [Reg.writtenBy, isTapDown, isTapUp, isPoll, isPresent, isStepIn] using w
  case capSld j => simpa [Reg.writtenBy, isTapDown, isTapUp, isPoll, isPresent, slider_cases j] using w
  all_goals cases w

theorem effect_poll_settling_onlyWrites {s : State} (n : s.touch.settleCount.toNat ≤ 1) (x y : U16) :
    OnlyWrites [.state, .settleCount, .x, .y] s (effect (.poll true x y) s) := by
  refine .of_writtenBy fun r w => ?_
  rcases writtenBy_poll_present w with mem | ⟨m, -⟩ | ⟨m, -⟩
  · exact mem
  all_goals omega

theorem effect_poll_tapDown_onlyWrites {s : State} (n : s.touch.settleCount.toNat = 2) (x y : U16) :
    OnlyWrites [.state, .settleCount, .x, .y, .capBtnValid, .capBtnId, .capSld 0, .capSld 1] s
      (effect (.poll true x y) s) := by
  refine .of_writtenBy fun r w => ?_
  rcases writtenBy_poll_present w with mem | ⟨-, mem⟩ | ⟨m, -⟩
  · exact List.mem_append_left [.capBtnValid, .capBtnId, .capSld 0, .capSld 1] mem
  · exact List.mem_append_right [.state, .settleCount, .x, .y] mem
  · omega

theorem effect_poll_drag_onlyWrites {s : State} (n : 3 ≤ s.touch.settleCount.toNat) (x y : U16) :
    OnlyWrites [.state, .settleCount, .x, .y, .value 0, .value 1] s (effect (.poll true x y) s) := by
  refine .of_writtenBy fun r w => ?_
  rcases writtenBy_poll_present w with mem | ⟨m, -⟩ | ⟨-, mem⟩
  · exact List.mem_append_left [.value 0, .value 1] mem
  · omega
  · exact List.mem_append_right [.state, .settleCount, .x, .y] mem

theorem effect_poll_absent_onlyWrites (x y : U16) (s : State) :
    OnlyWrites [.state, .settleCount, .capBtnValid, .capBtnId, .capSld 0, .capSld 1, .pressValid, .pressId] s
      (effect (.poll false x y) s) := by
  refine .of_writtenBy fun r w => ?_
  rcases writtenBy_poll_absent w with mem | ⟨-, mem⟩
  · exact List.mem_append_left [.capBtnValid, .capBtnId, .capSld 0, .capSld 1, .pressValid, .pressId] mem
  · exact List.mem_append_right [.state, .settleCount] mem

theorem effect_poll_noise_onlyWrites {s : State} (n : s.touch.settleCount.toNat < 3) (x y : U16) :
    OnlyWrites [.state, .settleCount] s (effect (.poll false x y) s) := by
  refine .of_writtenBy fun r w => ?_
  rcases writtenBy_poll_absent w with mem | ⟨m, -⟩
  · exact mem
  · omega

/-! The session after a POLL (R20 to R23, R111). -/

theorem effect_poll_present_touch (x y : U16) (s : State) :
    (effect (.poll true x y) s).touch =
      { state := if s.touch.settleCount.toNat ≤ 1 then .settling else .active
        settleCount := satInc16 s.touch.settleCount, x := x, y := y } := by
  rcases lt_trichotomy s.touch.settleCount.toNat 2 with n | n | n
  · rw [effect_poll_settling (Nat.le_of_lt_succ n), if_pos (Nat.le_of_lt_succ n)]; rfl
  · rw [effect_poll_tapDown n, if_neg (by omega)]; rfl
  · rw [effect_poll_drag n, if_neg (by omega)]; rfl

theorem effect_poll_absent_touch (x y : U16) (s : State) :
    (effect (.poll false x y) s).touch = { s.touch with state := .idle, settleCount := 0 } := by
  rcases Nat.lt_or_ge s.touch.settleCount.toNat 3 with n | n
  · rw [effect_poll_noise n]
  · rw [effect_poll_tapUp n]

theorem effect_poll_present_settleCount (x y : U16) (s : State) :
    (effect (.poll true x y) s).touch.settleCount.toNat = min 65535 (s.touch.settleCount.toNat + 1) := by
  rw [effect_poll_present_touch, satInc16_toNat]

/-! The output of a POLL, by its case (R112 to R116). -/

theorem effect_poll_settling_reports {s : State} (n : s.touch.settleCount.toNat ≤ 1) (x y : U16) :
    Reports .none s (effect (.poll true x y) s) := by
  rw [effect_poll_settling n]; exact ⟨rfl, rfl⟩

theorem effect_poll_tapDown_reports {s : State} (n : s.touch.settleCount.toNat = 2) (x y : U16) :
    Reports (.tapDown x y) s (effect (.poll true x y) s) := by
  rw [effect_poll_tapDown n]; exact ⟨rfl, rfl⟩

theorem effect_poll_drag_reports {s : State} (n : 3 ≤ s.touch.settleCount.toNat) (x y : U16) :
    Reports (.dragUpdate x y) s (effect (.poll true x y) s) := by
  rw [effect_poll_drag n]; exact ⟨rfl, rfl⟩

theorem effect_poll_tapUp_reports {s : State} (n : 3 ≤ s.touch.settleCount.toNat) (x y : U16) :
    Reports (.tapUp s.touch.x s.touch.y) s (effect (.poll false x y) s) := by
  rw [effect_poll_tapUp n]; exact ⟨rfl, rfl⟩

theorem effect_poll_noise_reports {s : State} (n : s.touch.settleCount.toNat < 3) (x y : U16) :
    Reports .none s (effect (.poll false x y) s) := by
  rw [effect_poll_noise n]; exact ⟨rfl, rfl⟩

theorem Reports.event_eq {e : TouchEvent} {s t : State} (h : Reports e s t) : t.out.event = e := by rw [h.1]

/-- Settles O14: the session and the frame of a POLL in its settling case. -/
theorem pollSuppressesTheFirstTwoSamples : Obligations.PollSuppressesTheFirstTwoSamples := by
  refine ⟨fun s t sx sy h => ?_, fun s t sx sy h => ?_, fun s sx sy n => ?_⟩
  · obtain rfl := exec_next_iff.1 h
    exact effect_poll_present_settleCount sx sy s
  · obtain rfl := exec_next_iff.1 h
    rw [effect_poll_absent_touch]
  · have n : s.touch.settleCount.toNat ≤ 1 := by omega
    refine ⟨_, exec_eq_effect _ _, ?_, ?_, ?_, effect_poll_settling_reports n sx sy,
      effect_poll_settling_onlyWrites n sx sy⟩
    all_goals simp [effect_poll_present_touch, n]

/-! TapDown (R133 to R136). -/

/-- The captured button is the matching one of highest id, or there is none. -/
theorem captureAt_button (cfg : Cfg) (px py : U16) :
    ((captureAt cfg px py).capBtnValid = true ∧ InButton cfg (captureAt cfg px py).capBtnId px py ∧
      ∀ i : ButtonId, InButton cfg i px py → i ≤ (captureAt cfg px py).capBtnId) ∨
    ((captureAt cfg px py).capBtnValid = false ∧ (captureAt cfg px py).capBtnId = 0 ∧
      ∀ i : ButtonId, ¬ InButton cfg i px py) := by
  simp only [captureAt, ← insideButton_iff]
  cases hit : hitButton cfg px py with
  | some i => exact .inl ⟨rfl, hitButton_some hit⟩
  | none => exact .inr ⟨rfl, rfl, fun i => by simp [hitButton_none hit i]⟩

theorem captureAt_slider (cfg : Cfg) (px py : U16) (j : SliderId) :
    (captureAt cfg px py).capSld[j] = true ↔ InSlider cfg j px py := by
  simp [captureAt, insideSlider_iff]

theorem effect_poll_tapDown_capture {s : State} (n : s.touch.settleCount.toNat = 2) (x y : U16) :
    (effect (.poll true x y) s).capture = captureAt s.cfg x y := by
  rw [effect_poll_tapDown n]; rfl

/-- Settles O15: the hit tests of `captureAt` are the boxes of R131 and R132. -/
theorem thirdSampleCaptures : Obligations.ThirdSampleCaptures := by
  intro s sx sy n
  have n : s.touch.settleCount.toNat = 2 := by omega
  have count : satInc16 s.touch.settleCount = 3 := BitVec.eq_of_toNat_eq (by rw [satInc16_toNat, n]; rfl)
  refine ⟨_, exec_eq_effect _ _, ?_, effect_poll_tapDown_reports n sx sy, ?_, ?_,
    effect_poll_tapDown_onlyWrites n sx sy⟩
  · rw [effect_poll_present_touch, n, count]; rfl
  · rw [effect_poll_tapDown_capture n]
    exact captureAt_button s.cfg sx sy
  · rw [effect_poll_tapDown_capture n]
    exact captureAt_slider s.cfg sx sy

/-! DragUpdate (R137, R138, R142). -/

theorem effect_poll_drag_value {s : State} (n : 3 ≤ s.touch.settleCount.toNat) (x y : U16) (j : SliderId) :
    (effect (.poll true x y) s).sliders[j].value =
      if s.capture.capSld[j] && insideSlider s.cfg j x y
      then sliderValue s.cfg.geom.sliders[j] x else s.sliders[j].value := by
  rw [effect_poll_drag n, onDragUpdate_value]; rfl

/-- Settles O16: R10 (b) makes the divisor of R137 positive. -/
theorem dragMovesCapturedSliders : Obligations.DragMovesCapturedSliders := by
  intro s sx sy n
  have n : 3 ≤ s.touch.settleCount.toNat := by omega
  refine ⟨_, exec_eq_effect _ _, ?_, effect_poll_present_settleCount sx sy s, ?_, ?_,
    effect_poll_drag_reports n sx sy, fun j captured inside => ?_, fun j other => ?_,
    effect_poll_drag_onlyWrites n sx sy⟩
  · rw [effect_poll_present_touch]; exact if_neg (by omega)
  · rw [effect_poll_present_touch]
  · rw [effect_poll_present_touch]
  · have wide := slider_width s.cfg j
    rw [effect_poll_drag_value n, captured, (insideSlider_iff ..).2 inside]
    exact ⟨by omega, sliderValue_toNat _ sx wide⟩
  · rw [← insideSlider_iff, ← Bool.and_eq_true] at other
    rw [effect_poll_drag_value n, if_neg other]

/-! TapUp (R139, R144). -/

theorem pressAccepted_iff (s : State) :
    pressAccepted s = true ↔
      s.capture.capBtnValid = true ∧ InButton s.cfg s.capture.capBtnId s.touch.x s.touch.y := by
  rw [pressAccepted, Bool.and_eq_true, insideButton_iff]

theorem effect_poll_tapUp_press {s : State} (n : 3 ≤ s.touch.settleCount.toNat) (x y : U16) :
    (effect (.poll false x y) s).press =
      if pressAccepted s then { pressValid := true, pressId := s.capture.capBtnId } else s.press := by
  rw [effect_poll_tapUp n]; rfl

theorem effect_poll_tapUp_capture {s : State} (n : 3 ≤ s.touch.settleCount.toNat) (x y : U16) :
    (effect (.poll false x y) s).capture = Capture.nothing := by
  rw [effect_poll_tapUp n]; rfl

/-- Settles O17: `pressAccepted_iff` decides which of the two the mailbox gets. -/
theorem releasePressesTheCapturedButton : Obligations.ReleasePressesTheCapturedButton := by
  intro s sx sy n
  refine ⟨_, exec_eq_effect _ _, effect_poll_absent_touch sx sy s, effect_poll_tapUp_reports n sx sy,
    fun captured inside => ?_, fun other => ?_, ?_, ?_, fun j => ?_, effect_poll_absent_onlyWrites sx sy s⟩
  · rw [effect_poll_tapUp_press n, if_pos ((pressAccepted_iff s).2 ⟨captured, inside⟩)]
  · rw [effect_poll_tapUp_press n, if_neg (mt (pressAccepted_iff s).1 other)]
  all_goals simp [effect_poll_tapUp_capture n, Capture.nothing]

/-! A whole contact: its samples and its release (R116, R123, R124). -/

/-- The POLLs of a contact with the given samples, and the one that finds it released. -/
def contactAndRelease (samples : List (U16 × U16)) (rx ry : U16) : List Instr :=
  samples.map (fun p => .poll true p.1 p.2) ++ [.poll false rx ry]

@[simp] theorem contactAndRelease_nil (rx ry : U16) : contactAndRelease [] rx ry = [.poll false rx ry] := rfl

@[simp] theorem contactAndRelease_cons (p : U16 × U16) (samples : List (U16 × U16)) (rx ry : U16) :
    contactAndRelease (p :: samples) rx ry = .poll true p.1 p.2 :: contactAndRelease samples rx ry := rfl

/-- With fewer than 3 samples counted at the release, the rest of a contact writes only the session. -/
theorem runOps_short_contact (samples : List (U16 × U16)) (rx ry : U16) (s : State)
    (short : s.touch.settleCount.toNat + samples.length < 3) :
    ∃ t, runOps (contactAndRelease samples rx ry) s = .next t ∧ t.touch.state = .idle ∧
      t.touch.settleCount = 0 ∧ OnlyWrites [.state, .settleCount, .x, .y] s t ∧ t.tx = s.tx := by
  induction samples generalizing s with
  | nil =>
    have frame := effect_poll_noise_onlyWrites short rx ry
    exact ⟨effect (.poll false rx ry) s, by simp, by rw [effect_poll_absent_touch], by rw [effect_poll_absent_touch],
      frame.mono (List.subset_append_left [Reg.state, .settleCount] [.x, .y]),
      (effect_poll_noise_reports short rx ry).2⟩
  | cons p samples ih =>
    rw [List.length_cons] at short
    have n : s.touch.settleCount.toNat ≤ 1 := by omega
    have count := effect_poll_present_settleCount p.1 p.2 s
    obtain ⟨t, run, idle, zero, frame, stream⟩ := ih (effect (.poll true p.1 p.2) s) (by omega)
    exact ⟨t, by simpa using run, idle, zero, (effect_poll_settling_onlyWrites n p.1 p.2).trans frame,
      stream.trans (effect_poll_settling_reports n p.1 p.2).2⟩

theorem eventsOf_short_contact (samples : List (U16 × U16)) (rx ry : U16) (s : State)
    (short : s.touch.settleCount.toNat + samples.length < 3) :
    eventsOf (contactAndRelease samples rx ry) s = List.replicate (samples.length + 1) .none := by
  induction samples generalizing s with
  | nil => simp [(effect_poll_noise_reports short rx ry).event_eq]
  | cons p samples ih =>
    rw [List.length_cons] at short
    have n : s.touch.settleCount.toNat ≤ 1 := by omega
    have count := effect_poll_present_settleCount p.1 p.2 s
    rw [contactAndRelease_cons, eventsOf_cons, (effect_poll_settling_reports n p.1 p.2).event_eq, ih _ (by omega)]
    rfl

/-- Settles O18: the release clears what the samples of a short contact wrote, but for x and y. -/
theorem shortContactIsDiscarded : Obligations.ShortContactIsDiscarded := by
  refine ⟨fun s sx sy n => ?_, fun s samples sx sy idle zero short => ?_⟩
  · exact ⟨_, exec_eq_effect _ _, by rw [effect_poll_absent_touch], by rw [effect_poll_absent_touch],
      effect_poll_noise_reports n sx sy, effect_poll_noise_onlyWrites n sx sy⟩
  · have short : s.touch.settleCount.toNat + samples.length < 3 := by simpa [zero] using short
    obtain ⟨t, run, idle', zero', frame, stream⟩ := runOps_short_contact samples sx sy s short
    refine ⟨t, run, (frame.of_cons ?_).of_cons ?_, stream, fun e mem => ?_⟩
    · rw [Reg.bits, Reg.bits, idle', idle]
    · rw [Reg.bits, Reg.bits, zero', zero]
    · exact List.eq_of_mem_replicate (eventsOf_short_contact samples sx sy s short ▸ mem)

/-- Once 3 samples are counted, each further sample drags, and the release taps up at the session coordinate. -/
theorem eventsOf_long_contact (more : List (U16 × U16)) (rx ry : U16) (s : State)
    (n : 3 ≤ s.touch.settleCount.toNat) :
    eventsOf (contactAndRelease more rx ry) s =
      more.map (fun p => .dragUpdate p.1 p.2) ++
        [.tapUp (more.getLastD (s.touch.x, s.touch.y)).1 (more.getLastD (s.touch.x, s.touch.y)).2] := by
  induction more generalizing s with
  | nil => simp [(effect_poll_tapUp_reports n rx ry).event_eq]
  | cons p more ih =>
    have count := effect_poll_present_settleCount p.1 p.2 s
    rw [contactAndRelease_cons, eventsOf_cons, (effect_poll_drag_reports n p.1 p.2).event_eq, ih _ (by omega),
      effect_poll_present_touch, List.getLastD_cons]
    rfl

/-- Settles O19: two settling samples, TapDown at the third, then `eventsOf_long_contact`. -/
theorem contactEventSequence : Obligations.ContactEventSequence := by
  refine ⟨fun s samples sx sy zero short => eventsOf_short_contact samples sx sy s (by simpa [zero] using short),
    fun s a b c more sx sy zero => ?_⟩
  have zero : s.touch.settleCount.toNat = 0 := by rw [zero]; rfl
  have one := effect_poll_present_settleCount a.1 a.2 s
  have two := effect_poll_present_settleCount b.1 b.2 (effect (.poll true a.1 a.2) s)
  have three := effect_poll_present_settleCount c.1 c.2 (effect (.poll true b.1 b.2) (effect (.poll true a.1 a.2) s))
  change eventsOf (contactAndRelease (a :: b :: c :: more) sx sy) s = _
  simp only [contactAndRelease_cons, eventsOf_cons]
  rw [(effect_poll_settling_reports (by omega) a.1 a.2).event_eq,
    (effect_poll_settling_reports (by omega) b.1 b.2).event_eq,
    (effect_poll_tapDown_reports (by omega) c.1 c.2).event_eq, eventsOf_long_contact _ _ _ _ (by omega),
    effect_poll_present_touch]
  rfl

end Sys2Proof.Machine

namespace Sys2Proof.Machine

/-! What `select` does to the records it names, and to the others (R160). -/

theorem selectOne_new (new old : ButtonId) (other : Option ButtonId) (b : Button) :
    (selectOne new old other new b).selected = true ∧ (selectOne new old other new b).dirty = true := by
  simp [selectOne]

theorem selectOne_deselected {new old : ButtonId} {other : Option ButtonId} {j : ButtonId} (ne : j ≠ new)
    (named : j = old ∨ some j = other) (b : Button) :
    (selectOne new old other j b).selected = false ∧ (selectOne new old other j b).dirty = true := by
  rw [selectOne, if_neg ne, if_pos named]
  exact ⟨rfl, rfl⟩

theorem selectOne_unnamed {new old : ButtonId} {other : Option ButtonId} {j : ButtonId}
    (unnamed : ¬ (j = new ∨ j = old ∨ some j = other)) (b : Button) : selectOne new old other j b = b := by
  obtain ⟨notNew, notDeselected⟩ := not_or.1 unnamed
  rw [selectOne, if_neg notNew, if_neg notDeselected]

/-- Table R163, the eye rows: the other two eye buttons are deselected, no bit is written, the letter is sent. -/
theorem dispatchTable_eye {i a b : ButtonId} {letter : Byte}
    (row : (i, a, b, letter) ∈ ([(10, 11, 12, 0x72), (11, 10, 12, 0x67), (12, 10, 11, 0x62)] :
      List (ButtonId × ButtonId × ButtonId × Byte))) :
    dispatchTable[i] = ⟨a, some b, none, some letter⟩ ∧ a ≠ i ∧ b ≠ i := by
  simp only [List.mem_cons, List.not_mem_nil, or_false, Prod.mk.injEq] at row
  rcases row with ⟨rfl, rfl, rfl, rfl⟩ | ⟨rfl, rfl, rfl, rfl⟩ | ⟨rfl, rfl, rfl, rfl⟩ <;> decide

/-- The registers a DISPATCH phase writes when it takes a press of button `i` with table row `r` (R165). -/
def DispatchRow.writes (i : ButtonId) (r : DispatchRow) : List Reg :=
  [.phase, .pressValid, .pressId, .selected i, .dirty i, .selected r.old, .dirty r.old] ++
    r.other.toList.flatMap (fun b => [.selected b, .dirty b]) ++ r.bit.toList.map (fun b => .controlBit b.1)

theorem DispatchRow.selected_mem_writes {i j : ButtonId} {r : DispatchRow} :
    .selected j ∈ r.writes i ↔ j = i ∨ j = r.old ∨ some j = r.other := by
  cases e : r.other <;> simp [DispatchRow.writes, e]

theorem DispatchRow.dirty_mem_writes {i j : ButtonId} {r : DispatchRow} :
    .dirty j ∈ r.writes i ↔ j = i ∨ j = r.old ∨ some j = r.other := by
  cases e : r.other <;> simp [DispatchRow.writes, e]

theorem DispatchRow.controlBit_mem_writes {i : ButtonId} {k : Fin 8} {r : DispatchRow} :
    .controlBit k ∈ r.writes i ↔ ∃ value, r.bit = some (k, value) := by
  cases e : r.bit <;> simp [DispatchRow.writes, Prod.ext_iff, eq_comm, e]

/-- A bit other than the row's keeps its value (R168). -/
theorem applyBit_getLsbD_of_unnamed {bit : Option (Fin 8 × Bool)} {k : Fin 8}
    (unnamed : ¬ ∃ value, bit = some (k, value)) (b : Byte) :
    (applyBit bit b).getLsbD k.val = b.getLsbD k.val := by
  cases bit with
  | none => rfl
  | some named =>
    have ne : k ≠ named.1 := fun e => unnamed ⟨named.2, by rw [e]⟩
    exact (writeBit_getLsbD b named.1 named.2 k).trans (if_neg ne)

/-! What a DISPATCH phase with a pending press changes and leaves, by the row of the dispatch table (R165). -/

section
variable {s : State} {r : DispatchRow} (p : s.phase = .dispatch) (v : s.press.pressValid = true)
  (row : dispatchTable[s.press.pressId] = r) (lx ly rx ry : Adc)
include p v row

theorem effect_dispatch_press_button (j : ButtonId) :
    (effect (.step lx ly rx ry) s).buttons[j] = selectOne s.press.pressId r.old r.other j s.buttons[j] := by
  rw [effect_dispatch_press p v, ← row]
  exact takePress_button s.idle j

theorem effect_dispatch_press_controlBits :
    (effect (.step lx ly rx ry) s).controlBits = applyBit r.bit s.controlBits := by
  rw [effect_dispatch_press p v, ← row]
  rfl

theorem effect_dispatch_press_onlyWrites :
    OnlyWrites (r.writes s.press.pressId) s (effect (.step lx ly rx ry) s) := by
  refine ⟨fun q out => ?_, effect_cfg _ s, effect_inputs _ s⟩
  cases q
  case phase | pressValid | pressId => simp [DispatchRow.writes] at out
  case selected j =>
    rw [Reg.bits, Reg.bits, effect_dispatch_press_button p v row,
      selectOne_unnamed (mt DispatchRow.selected_mem_writes.2 out)]
  case dirty j =>
    rw [Reg.bits, Reg.bits, effect_dispatch_press_button p v row,
      selectOne_unnamed (mt DispatchRow.dirty_mem_writes.2 out)]
  case controlBit k =>
    rw [Reg.bits, Reg.bits, effect_dispatch_press_controlBits p v row,
      applyBit_getLsbD_of_unnamed (mt DispatchRow.controlBit_mem_writes.2 out)]
  case highlighted | lastRendered | tickAcc | fullRedraw =>
    exact dispatch_keeps_unwritten p lx ly rx ry _ (by simp [Reg.writtenBy, isStepIn, p])
  all_goals exact dispatch_keeps_unwritten p lx ly rx ry _ rfl

theorem effect_dispatch_press_selects :
    (effect (.step lx ly rx ry) s).buttons[s.press.pressId].selected = true ∧
    (effect (.step lx ly rx ry) s).buttons[s.press.pressId].dirty = true := by
  rw [effect_dispatch_press_button p v row]
  exact selectOne_new ..

theorem effect_dispatch_press_deselects {j : ButtonId} (ne : j ≠ s.press.pressId)
    (named : j = r.old ∨ some j = r.other) :
    (effect (.step lx ly rx ry) s).buttons[j].selected = false ∧
    (effect (.step lx ly rx ry) s).buttons[j].dirty = true := by
  rw [effect_dispatch_press_button p v row]
  exact selectOne_deselected ne named _

end

theorem effect_dispatch_press_mailbox {s : State} (p : s.phase = .dispatch) (v : s.press.pressValid = true)
    (lx ly rx ry : Adc) :
    (effect (.step lx ly rx ry) s).phase = .frame ∧ (effect (.step lx ly rx ry) s).press = PressMailbox.empty := by
  rw [effect_dispatch_press p v]
  exact ⟨rfl, rfl⟩

/-- With no press only the phase moves (R166). -/
theorem effect_dispatch_noPress_onlyWrites {s : State} (p : s.phase = .dispatch) (v : s.press.pressValid = false)
    (lx ly rx ry : Adc) : OnlyWrites [.phase] s (effect (.step lx ly rx ry) s) := by
  rw [effect_dispatch_noPress p v]
  refine ⟨fun q out => ?_, rfl, rfl⟩
  cases q
  case phase => simp at out
  all_goals rfl

/-- Settles O25: the row of the dispatch table, pair or eye, gives the selection, the bit, the byte and the frame. -/
theorem dispatchTakesThePress : Obligations.DispatchTakesThePress := by
  refine ⟨?pair, ?eye, ?noPress⟩
  case pair =>
    rintro s lx ly rx ry k v _ old lt new partner p valid rfl
    obtain ⟨row, ne⟩ := dispatchTable_pair k v _ old lt new partner
    obtain ⟨phase, mailbox⟩ := effect_dispatch_press_mailbox p valid lx ly rx ry
    obtain ⟨newSelected, newDirty⟩ := effect_dispatch_press_selects p valid row lx ly rx ry
    obtain ⟨oldSelected, oldDirty⟩ := effect_dispatch_press_deselects p valid row lx ly rx ry ne.symm (.inl rfl)
    have bit : (effect (.step lx ly rx ry) s).controlBits.getLsbD k.val = v := by
      rw [effect_dispatch_press_controlBits p valid row]
      exact (writeBit_getLsbD _ k v k).trans (if_pos rfl)
    obtain ⟨out, tx⟩ := effect_dispatch_press_sends p valid lx ly rx ry
    rw [row] at out tx
    exact ⟨_, exec_eq_effect _ s, phase, mailbox, newSelected, newDirty, oldSelected, oldDirty, bit,
      ⟨out, tx.trans (List.append_nil _)⟩, effect_dispatch_press_onlyWrites p valid row lx ly rx ry⟩
  case eye =>
    rintro s lx ly rx ry _ a b letter mem p valid rfl
    obtain ⟨row, neA, neB⟩ := dispatchTable_eye mem
    obtain ⟨phase, mailbox⟩ := effect_dispatch_press_mailbox p valid lx ly rx ry
    obtain ⟨newSelected, newDirty⟩ := effect_dispatch_press_selects p valid row lx ly rx ry
    obtain ⟨aSelected, aDirty⟩ := effect_dispatch_press_deselects p valid row lx ly rx ry neA (.inl rfl)
    obtain ⟨bSelected, bDirty⟩ := effect_dispatch_press_deselects p valid row lx ly rx ry neB (.inr rfl)
    have sends := effect_dispatch_press_sends p valid lx ly rx ry
    rw [row] at sends
    exact ⟨_, exec_eq_effect _ s, phase, mailbox, newSelected, newDirty, aSelected, aDirty, bSelected, bDirty, sends,
      effect_dispatch_press_onlyWrites p valid row lx ly rx ry⟩
  case noPress =>
    intro s lx ly rx ry p empty
    refine ⟨_, exec_eq_effect _ s, ?_, ?_, effect_dispatch_noPress_onlyWrites p empty lx ly rx ry⟩
    · rw [effect_dispatch_noPress p empty]; rfl
    · rw [effect_dispatch_noPress p empty]; exact ⟨rfl, rfl⟩

end Sys2Proof.Machine

namespace Sys2Proof.Machine

/-! TICK, and the seven bytes of a frame (R180, R182 to R184, R96). -/

theorem effect_tick_onlyWrites (s : State) : OnlyWrites [.tickAcc] s (effect .tick s) := by
  refine .of_writtenBy fun r w => ?_
  cases r
  case tickAcc => exact List.mem_singleton_self _
  all_goals cases w

/-- Settles O12: the code is the encoder's, the increment is `wrapInc16`, and TICK is listed for `tickAcc` alone. -/
theorem tickIncrementsTheAccumulator : Obligations.TickIncrementsTheAccumulator :=
  ⟨Laws.EncodedOpcode.tick, fun s =>
    ⟨_, exec_eq_effect .tick s, wrapInc16_toNat s.tickAcc, effect_tick_onlyWrites s, rfl, rfl⟩⟩

theorem buildFrame_eq (c b lx ly rx ry : Byte) : ∃ sum : Byte,
    buildFrame c b lx ly rx ry = [c, b, lx, ly, rx, ry, sum] ∧
    sum.toNat = (b.toNat + lx.toNat + ly.toNat + rx.toNat + ry.toNat) % 256 :=
  ⟨_, rfl, by rw [BitVec.toNat_ofNat]; exact Nat.mod_mod _ _⟩

/-- Settles O28: the fold over offsets 1 to 5 is the sum `buildFrame` stores. -/
theorem checksumCoversOffsetsOneToFive : Obligations.ChecksumCoversOffsetsOneToFive := by
  intro c b lx ly rx ry
  obtain ⟨sum, frame, value⟩ := buildFrame_eq c b lx ly rx ry
  exact ⟨sum, frame, by simp [frame, value]⟩

theorem frameNow_toNat (lx ly rx ry : Adc) (s : State) : (frameNow lx ly rx ry s).map BitVec.toNat =
    [0x63, s.controlBits.toNat, lx.toNat / 4, ly.toNat / 4, rx.toNat / 4, ry.toNat / 4,
      (s.controlBits.toNat + lx.toNat / 4 + ly.toNat / 4 + rx.toNat / 4 + ry.toNat / 4) % 256] := by
  obtain ⟨sum, frame, value⟩ := buildFrame_eq Config.cmdChar s.controlBits (joystickByte lx) (joystickByte ly)
    (joystickByte rx) (joystickByte ry)
  simp [frameNow, frame, value, joystickByte_toNat]

/-- Only a DISPATCH phase writes ControlBits (table R48). -/
theorem effect_controlBits_of_phase_ne {s : State} (p : s.phase ≠ .dispatch) (i : Instr) :
    (effect i s).controlBits = s.controlBits := by
  have unwritten : isStepIn .dispatch i s = false := by
    cases i with
    | nop | tick | poll | rxsoc | batt => rfl
    | step => exact decide_eq_false p
  exact controlBits_eq_of_bits fun k => effect_keeps_unwritten i s (.controlBit k) unwritten

/-! What a FRAME phase changes and leaves, with a frame due and without (R186). -/

theorem effect_frame_onlyWrites {s : State} (p : s.phase = .frame) (lx ly rx ry : Adc) :
    OnlyWrites [.phase, .tickAcc] s (effect (.step lx ly rx ry) s) := by
  refine .of_writtenBy fun r w => ?_
  cases r
  case phase | tickAcc => simp
  all_goals simp [Reg.writtenBy, isTapDown, isTapUp, isDrag, isPoll, isPresent, isStepIn, p] at w

section
variable {s : State} (p : s.phase = .frame) (due : 781 < s.tickAcc.toNat) (lx ly rx ry : Adc)
include p due

theorem effect_frame_due_phase : (effect (.step lx ly rx ry) s).phase = .frame := by
  rw [effect_frame_due p due]
  exact p

theorem effect_frame_due_tickAcc : (effect (.step lx ly rx ry) s).tickAcc.toNat = s.tickAcc.toNat - 781 := by
  have := s.tickAcc.isLt
  rw [effect_frame_due p due, BitVec.toNat_ofNat]
  omega

theorem effect_frame_due_onlyWrites : OnlyWrites [.tickAcc] s (effect (.step lx ly rx ry) s) :=
  (effect_frame_onlyWrites p lx ly rx ry).of_cons (by rw [Reg.bits, Reg.bits, effect_frame_due_phase p due, p])

end

section
variable {s : State} (p : s.phase = .frame) (notDue : s.tickAcc.toNat ≤ 781) (lx ly rx ry : Adc)
include p notDue

theorem effect_frame_notDue_silent : Silent s (effect (.step lx ly rx ry) s) := by
  rw [effect_frame_notDue p notDue]
  exact ⟨rfl, rfl⟩

theorem effect_frame_notDue_phase : (effect (.step lx ly rx ry) s).phase = .render := by
  rw [effect_frame_notDue p notDue, State.goTo_phase]

theorem effect_frame_notDue_tickAcc : (effect (.step lx ly rx ry) s).tickAcc = s.tickAcc := by
  rw [effect_frame_notDue p notDue, State.goTo_tickAcc, State.idle_tickAcc]

theorem effect_frame_notDue_onlyWrites : OnlyWrites [.phase] s (effect (.step lx ly rx ry) s) := by
  refine .of_cons (r := .tickAcc) ((effect_frame_onlyWrites p lx ly rx ry).mono (List.Perm.swap _ _ _).subset) ?_
  rw [Reg.bits, Reg.bits, effect_frame_notDue_tickAcc p notDue]

end

/-- Settles O27: one clause per branch of the FRAME phase. -/
theorem framePhaseSendsWhenDue : Obligations.FramePhaseSendsWhenDue := by
  refine ⟨fun s lx ly rx ry p due => ?_, fun s lx ly rx ry p notDue => ?_⟩
  · have remaining := effect_frame_due_tickAcc p due lx ly rx ry
    exact ⟨_, _, exec_eq_effect _ s, effect_frame_due_sends p due lx ly rx ry, frameNow_toNat lx ly rx ry s,
      remaining, by omega, effect_frame_due_onlyWrites p due lx ly rx ry⟩
  · exact ⟨_, exec_eq_effect _ s, effect_frame_notDue_phase p notDue lx ly rx ry,
      effect_frame_notDue_silent p notDue lx ly rx ry, effect_frame_notDue_onlyWrites p notDue lx ly rx ry⟩

/-! Successive STEPs, each with readings of its own (R188). -/

/-- One STEP per set of readings. -/
def stepsWith (readings : List (Adc × Adc × Adc × Adc)) : List Instr :=
  readings.map fun r => .step r.1 r.2.1 r.2.2.1 r.2.2.2

/-- The frames with ControlBits `bits` and these readings, back to back. -/
def framesWith (bits : Byte) (readings : List (Adc × Adc × Adc × Adc)) : List Byte :=
  readings.flatMap fun r => buildFrame Config.cmdChar bits (joystickByte r.1) (joystickByte r.2.1)
    (joystickByte r.2.2.1) (joystickByte r.2.2.2)

@[simp] theorem stepsWith_nil : stepsWith [] = [] := rfl

@[simp] theorem stepsWith_cons (r : Adc × Adc × Adc × Adc) (readings : List (Adc × Adc × Adc × Adc)) :
    stepsWith (r :: readings) = .step r.1 r.2.1 r.2.2.1 r.2.2.2 :: stepsWith readings := rfl

@[simp] theorem framesWith_nil (bits : Byte) : framesWith bits [] = [] := rfl

theorem framesWith_cons (r : Adc × Adc × Adc × Adc) (readings : List (Adc × Adc × Adc × Adc)) (s : State) :
    framesWith s.controlBits (r :: readings) =
      frameNow r.1 r.2.1 r.2.2.1 r.2.2.2 s ++ framesWith s.controlBits readings := rfl

theorem framesDue_eq_zero {n : U16} (notDue : n.toNat ≤ 781) : framesDue n = 0 := by
  simp only [framesDue, Config.tickDiv]
  omega

theorem framesDue_of_due {n m : U16} (due : 781 < n.toNat) (sub : m.toNat = n.toNat - 781) :
    framesDue n = framesDue m + 1 := by
  simp only [framesDue, Config.tickDiv]
  omega

/-- The FRAME phase of an iteration: each STEP but the last sends a frame, and the last moves the phase on. -/
theorem runOps_frame_backlog (readings : List (Adc × Adc × Adc × Adc)) (s : State) (p : s.phase = .frame)
    (len : readings.length = framesDue s.tickAcc + 1) :
    ∃ t, runOps (stepsWith readings) s = .next t ∧ t.phase = .render ∧ t.tickAcc.toNat ≤ 781 ∧
      t.tickAcc.toNat = s.tickAcc.toNat - 781 * framesDue s.tickAcc ∧
      t.tx = s.tx ++ framesWith s.controlBits (readings.take (framesDue s.tickAcc)) ∧
      bytesOf (stepsWith readings) s = framesWith s.controlBits (readings.take (framesDue s.tickAcc)) ∧
      OnlyWrites [.tickAcc, .phase] s t := by
  induction readings generalizing s with
  | nil => simp at len
  | cons r readings ih =>
    obtain ⟨lx, ly, rx, ry⟩ := r
    rcases Nat.lt_or_ge 781 s.tickAcc.toNat with due | notDue
    · have tick := effect_frame_due_tickAcc p due lx ly rx ry
      have frames := framesDue_of_due due tick
      have bits := effect_controlBits_of_phase_ne (s := s) (by simp [p]) (.step lx ly rx ry)
      obtain ⟨out, stream⟩ := effect_frame_due_sends p due lx ly rx ry
      obtain ⟨t, run, phase, le, sub, sent, bytes, frame⟩ := ih (effect (.step lx ly rx ry) s)
        (effect_frame_due_phase p due lx ly rx ry) (by simpa [frames] using len)
      rw [bits] at sent bytes
      rw [frames, List.take_succ_cons, framesWith_cons, stepsWith_cons]
      refine ⟨t, by rw [runOps_cons, run], phase, le, by omega, ?_, ?_, ?_⟩
      · rw [sent, stream, List.append_assoc]
      · rw [bytesOf_cons, bytes, out]
      · exact ((effect_frame_due_onlyWrites p due lx ly rx ry).mono
          (List.subset_append_left [Reg.tickAcc] [.phase])).trans frame
    · have noFrame := framesDue_eq_zero notDue
      obtain rfl : readings = [] := by simpa [noFrame] using len
      have tick := effect_frame_notDue_tickAcc p notDue lx ly rx ry
      obtain ⟨out, stream⟩ := effect_frame_notDue_silent p notDue lx ly rx ry
      exact ⟨_, by simp, effect_frame_notDue_phase p notDue lx ly rx ry, by rwa [tick], by simp [tick, noFrame],
        by simp [stream, noFrame], by simp [out, noFrame],
        (effect_frame_notDue_onlyWrites p notDue lx ly rx ry).mono (List.subset_cons_self ..)⟩

/-- Settles O29: `runOps_frame_backlog` with the steps and the frames written out. -/
theorem framePhaseDrainsTheBacklog : Obligations.FramePhaseDrainsTheBacklog :=
  fun s readings p len => runOps_frame_backlog readings s p len

/-! Between a DISPATCH phase and the next render pass ControlBits stays as dispatched (R191). -/

@[simp] theorem drawsOf_cons (i : Instr) (rest : List Instr) (s : State) :
    drawsOf (i :: rest) s = (effect i s).out.draw.toList ++ drawsOf rest (effect i s) := by
  cases d : (effect i s).out.draw <;> simp [drawsOf, d]

/-- Only a render pass ends an iteration (R29). -/
theorem effect_phase_ne_dispatch {i : Instr} {s : State} (p : s.phase ≠ .dispatch)
    (noRender : isStepIn .render i s = false) : (effect i s).phase ≠ .dispatch := by
  cases i with
  | nop | tick | poll | rxsoc | batt => rwa [phase_eq_of_bits (effect_keeps_unwritten _ s .phase rfl)]
  | step lx ly rx ry =>
    cases q : s.phase with
    | dispatch => exact absurd q p
    | render => simp [isStepIn, q] at noRender
    | frame =>
      rcases Nat.lt_or_ge 781 s.tickAcc.toNat with due | notDue
      · simp [effect_frame_due_phase q due]
      · simp [effect_frame_notDue_phase q notDue]

theorem not_render_of_draw_eq_none {i : Instr} {s : State} (h : (effect i s).out.draw = none) :
    isStepIn .render i s = false := by
  refine Bool.eq_false_iff.2 fun render => ?_
  rw [effect_draw_of_render render] at h
  cases h

theorem runOps_controlBits_of_no_draw (mid : List Instr) (s u : State) (p : s.phase ≠ .dispatch)
    (run : runOps mid s = .next u) (noDraw : drawsOf mid s = []) : u.controlBits = s.controlBits := by
  induction mid generalizing s with
  | nil => cases run; rfl
  | cons i mid ih =>
    rw [runOps_cons] at run
    rw [drawsOf_cons, List.append_eq_nil_iff, Option.toList_eq_nil_iff] at noDraw
    obtain ⟨noDrawNow, noDrawLater⟩ := noDraw
    have stays := effect_phase_ne_dispatch p (not_render_of_draw_eq_none noDrawNow)
    rw [ih _ stays run noDrawLater, effect_controlBits_of_phase_ne p]

theorem dispatchTable_pair_bit {k : Fin 8} {v : Bool} {i : ButtonId} (lt : k.val < 5)
    (pair : i.val = 2 * k.val + v.toNat) : dispatchTable[i].bit = some (k, v) := by
  have le := Bool.toNat_le (!v)
  have partner : 2 * k.val + (!v).toNat < 13 := by omega
  rw [(dispatchTable_pair k v i ⟨_, partner⟩ lt pair rfl).1]

/-- Settles O35: the DISPATCH phase writes the bit, nothing up to the FRAME phase writes ControlBits, and the frame
carries them as byte 1. -/
theorem framesCarryTheirIterationsPress : Obligations.FramesCarryTheirIterationsPress := by
  intro s s₁ u t mid k v lx ly rx ry lx' ly' rx' ry' lt p valid pair dispatched run noDraw inFrame due sent
  obtain rfl := exec_next_iff.1 dispatched
  obtain rfl := exec_next_iff.1 sent
  have leaves : (effect (.step lx ly rx ry) s).phase ≠ .dispatch := by
    simp [(effect_dispatch_press_mailbox p valid lx ly rx ry).1]
  have bit : u.controlBits.getLsbD k.val = v := by
    rw [runOps_controlBits_of_no_draw mid _ u leaves run noDraw,
      effect_dispatch_press_controlBits p valid rfl, dispatchTable_pair_bit lt pair]
    exact (writeBit_getLsbD _ k v k).trans (if_pos rfl)
  obtain ⟨-, stream⟩ := effect_frame_due_sends inFrame due lx' ly' rx' ry'
  exact ⟨_, u.controlBits, stream, buildFrame_length .., rfl, bit⟩

end Sys2Proof.Machine

namespace Sys2Proof.Machine

/-! RXSOC and BATT: each writes its own estimate, by the monotone rule (R200 to R202, R204). -/

theorem effect_rxsoc_onlyWrites (byte : Byte) (s : State) : OnlyWrites [.remotePct] s (effect (.rxsoc byte) s) := by
  refine .of_writtenBy fun r w => ?_
  cases r
  case remotePct => exact List.mem_singleton_self _
  all_goals cases w

theorem effect_batt_onlyWrites (adc : Adc) (s : State) : OnlyWrites [.localPct] s (effect (.batt adc) s) := by
  refine .of_writtenBy fun r w => ?_
  cases r
  case localPct => exact List.mem_singleton_self _
  all_goals cases w

/-- A received byte is never negative, so what is stored fits 16 bits (R204). -/
theorem effect_rxsoc_remotePct (byte : Byte) (s : State) :
    (effect (.rxsoc byte) s).remotePct.toInt =
      if (byte.toNat : Int) < s.remotePct.toInt then (byte.toNat : Int) else s.remotePct.toInt :=
  foldEstimate_toInt s.remotePct byte.toNat (by omega)

/-- A reading's percentage is at least -333, so what is stored fits 16 bits (R201, R46). -/
theorem effect_batt_localPct (adc : Adc) (s : State) :
    (effect (.batt adc) s).localPct.toInt =
      if localPercent adc < s.localPct.toInt then localPercent adc else s.localPct.toInt := by
  obtain ⟨low, -⟩ := localPercent_bounds adc
  exact foldEstimate_toInt s.localPct (localPercent adc) (by omega)

/-- Settles O21: the code is the encoder's, the value the monotone rule's, and RXSOC is listed for `remotePct` alone. -/
theorem rxsocLowersTheRemoteEstimate : Obligations.RxsocLowersTheRemoteEstimate :=
  ⟨Laws.EncodedOpcode.rxsoc, fun s byte =>
    ⟨_, exec_eq_effect (.rxsoc byte) s, effect_rxsoc_remotePct byte s, effect_rxsoc_onlyWrites byte s, rfl, rfl⟩⟩

/-- Settles O22: the code is the encoder's, the value the monotone rule's, and BATT is listed for `localPct` alone. -/
theorem battLowersTheLocalEstimate : Obligations.BattLowersTheLocalEstimate :=
  ⟨Laws.EncodedOpcode.batt, fun s adc =>
    ⟨_, exec_eq_effect (.batt adc) s, effect_batt_localPct adc s, effect_batt_onlyWrites adc s, rfl, rfl⟩⟩

end Sys2Proof.Machine

namespace Sys2Proof.Machine

/-! NOP (R215). -/

theorem effect_nop_onlyWrites (s : State) : OnlyWrites [] s (effect .nop s) :=
  .of_writtenBy fun r w => by cases r <;> cases w

/-- Settles O11: the code is the encoder's, and NOP is listed for no register. -/
theorem nopChangesNothing : Obligations.NopChangesNothing :=
  ⟨Laws.EncodedOpcode.nop, fun s => ⟨_, exec_eq_effect .nop s, effect_nop_onlyWrites s, rfl, rfl⟩⟩

/-! A render pass: its outputs, and what it changes and leaves (R220 to R224). -/

/-- R220: after the refresh a button is dirty when it was, or when its highlight changes. -/
theorem refreshHighlight_dirty_iff (s : State) (i : ButtonId) :
    (refreshHighlight s).buttons[i].dirty = true ↔
      s.buttons[i].dirty = true ∨ ¬ (s.buttons[i].highlighted = true ↔ highlightNow s i = true) := by
  rw [refreshHighlight_button, Bool.or_eq_true, bne_iff_ne, ne_comm]
  exact or_congr_right (not_congr Bool.eq_iff_iff)

section
variable {s : State} (p : s.phase = .render) (lx ly rx ry : Adc)
include p

/-- What a pass writes (table R48). -/
theorem effect_render_onlyWrites :
    OnlyWrites ((List.finRange 13).map .highlighted ++ (List.finRange 13).map .dirty ++
      [.lastRendered 0, .lastRendered 1, .fullRedraw, .phase]) s (effect (.step lx ly rx ry) s) := by
  refine .of_writtenBy fun r w => ?_
  cases r
  case highlighted | dirty | fullRedraw | phase => simp
  case lastRendered j => simp [slider_cases j]
  all_goals simp [Reg.writtenBy, isTapDown, isTapUp, isDrag, isPoll, isPresent, isStepIn, p] at w

theorem effect_render_out :
    (effect (.step lx ly rx ry) s).out =
      { event := .none, tx := [], draw := some (drawRecord (refreshHighlight s)), err := false } := by
  rw [effect_step_render p, renderPhase_out]
  rfl

theorem effect_render_highlighted (i : ButtonId) :
    (effect (.step lx ly rx ry) s).buttons[i].highlighted = highlightNow s i := by
  rw [effect_step_render p, renderPhase_button, highlightNow_idle]

/-- R221, R223: what the refresh made dirty stays dirty unless the record lists it. -/
theorem effect_render_dirty (i : ButtonId) :
    (effect (.step lx ly rx ry) s).buttons[i].dirty =
      ((refreshHighlight s).buttons[i].dirty && !(drawRecord (refreshHighlight s)).btn[i]) := by
  rw [effect_step_render p, renderPhase_buttons, clearDrawn_button, drawRecord_btn]
  rfl

theorem effect_render_lastRenderedValue (j : SliderId) :
    (effect (.step lx ly rx ry) s).sliders[j].lastRenderedValue =
      if (drawRecord (refreshHighlight s)).sld[j] then s.sliders[j].value else s.sliders[j].lastRenderedValue := by
  rw [effect_step_render p, renderPhase_slider, drawRecord_sld]
  rfl

end

/-- Settles O30: the record is `drawRecord` of the refreshed widgets, and the pass clears what it lists. -/
theorem renderPassDrawsAndClears : Obligations.RenderPassDrawsAndClears := by
  intro s lx ly rx ry p
  refine ⟨_, drawRecord (refreshHighlight s), exec_eq_effect _ s, effect_render_out p lx ly rx ry, ?stream, rfl, rfl,
    rfl, fun i => ?button, fun j => ⟨?drawnSlider, effect_render_lastRenderedValue p lx ly rx ry j⟩, ?full, ?phase,
    effect_render_onlyWrites p lx ly rx ry⟩
  case stream => rw [effect_step_render p, renderPhase_tx, State.idle_tx]
  case button =>
    simp only [← highlightNow_iff, ← refreshHighlight_dirty_iff]
    refine ⟨?_, ?_, ?_⟩
    · rw [effect_render_highlighted p]
    · rw [drawRecord_btn]
      exact drawsButton_iff (refreshHighlight s) i
    · rw [effect_render_dirty p, Bool.and_eq_true, Bool.not_eq_true', Bool.not_eq_true]
  case drawnSlider =>
    rw [drawRecord_sld]
    exact drawsSlider_iff (refreshHighlight s) j
  case full => rw [effect_step_render p, renderPhase_fullRedraw]
  case phase => rw [effect_step_render p, renderPhase_phase]

/-! A dirty flag is cleared by a render pass only (R223). -/

theorem step_of_isStepIn {q : Phase} {i : Instr} {s : State} (h : isStepIn q i s = true) :
    s.phase = q ∧ ∃ lx ly rx ry, i = .step lx ly rx ry := by
  cases i with
  | nop | tick | poll | rxsoc | batt => cases h
  | step lx ly rx ry => exact ⟨of_decide_eq_true h, lx, ly, rx, ry, rfl⟩

/-- `select` marks buttons dirty and clears no flag (R160). -/
theorem selectOne_keeps_dirty (new old : ButtonId) (other : Option ButtonId) (i : ButtonId) {b : Button}
    (dirty : b.dirty = true) : (selectOne new old other i b).dirty = true := by
  rw [selectOne_dirty, dirty, ite_self]

theorem effect_dispatch_keeps_dirty {s : State} {b : ButtonId} (p : s.phase = .dispatch)
    (dirty : s.buttons[b].dirty = true) (lx ly rx ry : Adc) :
    (effect (.step lx ly rx ry) s).buttons[b].dirty = true := by
  cases v : s.press.pressValid with
  | true =>
    rw [effect_dispatch_press_button p v rfl]
    exact selectOne_keeps_dirty _ _ _ _ dirty
  | false =>
    rw [effect_dispatch_noPress p v]
    exact dirty

theorem effect_keeps_dirty_of_not_render {i : Instr} {s : State} {b : ButtonId}
    (noRender : isStepIn .render i s = false) (dirty : s.buttons[b].dirty = true) :
    (effect i s).buttons[b].dirty = true := by
  cases d : isStepIn .dispatch i s with
  | false =>
    have unwritten : Reg.writtenBy i s (.dirty b) = false := by simp [Reg.writtenBy, d, noRender]
    rw [bool_eq_of_toNat (effect_keeps_unwritten i s _ unwritten), dirty]
  | true =>
    obtain ⟨p, lx, ly, rx, ry, rfl⟩ := step_of_isStepIn d
    exact effect_dispatch_keeps_dirty p dirty lx ly rx ry

/-- A render pass clears a flag by listing the button (R221). -/
theorem drawn_of_render_clears_dirty {s : State} {b : ButtonId} (p : s.phase = .render) (lx ly rx ry : Adc)
    (dirty : s.buttons[b].dirty = true) (cleared : (effect (.step lx ly rx ry) s).buttons[b].dirty = false) :
    (drawRecord (refreshHighlight s)).btn[b] = true := by
  have marked := (refreshHighlight_dirty_iff s b).2 (.inl dirty)
  rwa [effect_render_dirty p, marked, Bool.true_and, Bool.not_eq_false'] at cleared

/-- Settles O31: every operation but a render pass keeps the flag, and a pass lists what it clears. -/
theorem dirtyClearedOnlyByADraw : Obligations.DirtyClearedOnlyByADraw := by
  intro i s t b h dirty cleared
  obtain rfl := exec_next_iff.1 h
  cases r : isStepIn .render i s with
  | false =>
    rw [effect_keeps_dirty_of_not_render r dirty] at cleared
    cases cleared
  | true =>
    obtain ⟨p, lx, ly, rx, ry, rfl⟩ := step_of_isStepIn r
    exact ⟨_, congrArg Outputs.draw (effect_render_out p lx ly rx ry),
      drawn_of_render_clears_dirty p lx ly rx ry dirty cleared⟩

end Sys2Proof.Machine

namespace Sys2Proof.Machine

/-! Only a reserved code stops the block (R240). -/

/-- Every code below the reserved ones names an operation (R81, R88). -/
theorem exists_decode_of_code_lt {w : OpWord} (c : (opcodeOf w).toNat < 6) : ∃ i, decode w = .ok i := by
  rcases decode_cases w with ⟨-, e⟩ | ⟨-, e⟩ | ⟨-, e⟩ | ⟨-, e⟩ | ⟨-, e⟩ | ⟨-, e⟩ | ⟨reserved, -⟩
  case inr.inr.inr.inr.inr.inr => omega
  all_goals exact ⟨_, e⟩

theorem acceptWord_of_decode {w : OpWord} {i : Instr} (d : decode w = .ok i) (s : State) :
    acceptWord w s = .next (effect i s) := by
  simp only [acceptWord, d, exec_eq_effect]

/-- An accepted word leads to a next state, or its code is reserved and named. -/
theorem acceptWord_next_or_reserved (w : OpWord) (s : State) : (∃ t, acceptWord w s = .next t) ∨
    (6 ≤ w.toNat / 2 ^ 44 ∧ acceptWord w s = .refused (.reservedOpcode (opcodeOf w))) := by
  rw [← opcodeOf_toNat]
  rcases Nat.lt_or_ge (opcodeOf w).toNat 6 with named | reserved
  · obtain ⟨i, d⟩ := exists_decode_of_code_lt named
    exact .inl ⟨_, acceptWord_of_decode d s⟩
  · exact .inr ⟨reserved, acceptWord_reserved reserved s⟩

/-- Settles O7: every operation answers its `effect`, and of the clock edges only one that accepts a word can stop. -/
theorem onlyReservedCodesStop : Obligations.OnlyReservedCodesStop := by
  refine ⟨fun i s => ⟨_, exec_eq_effect i s⟩, fun s => ?_⟩
  cases inputs : s.inputs with
  | nil => exact .inl ⟨_, step_no_input inputs⟩
  | cons c rest =>
    obtain ⟨rst, opValid, w⟩ := c
    simp only [step, inputs]
    cases rst with
    | true => exact .inl ⟨_, rfl⟩
    | false =>
      cases opValid with
      | false => exact .inl ⟨_, rfl⟩
      | true =>
        rcases acceptWord_next_or_reserved w { s with inputs := rest } with next | ⟨reserved, refused⟩
        · exact .inl next
        · exact .inr ⟨w, rest, rfl, reserved, refused⟩

end Sys2Proof.Machine

namespace Sys2Proof.Machine

/-! The widget files and the capture registers at reset (R25, R34 to R39, R261), element by element. -/

theorem Capture.nothing_capSld (j : SliderId) : Capture.nothing.capSld[j] = false :=
  Vector.getElem_ofFn j.isLt

theorem State.resetWith_button (cfg : Cfg) (i : ButtonId) : (State.resetWith cfg).buttons[i] = Button.atReset i :=
  Vector.getElem_ofFn i.isLt

theorem State.resetWith_slider (cfg : Cfg) (j : SliderId) : (State.resetWith cfg).sliders[j] = Slider.atReset :=
  Vector.getElem_ofFn j.isLt

/-- The bit-clearing members of the five pairs (R34) are the even ids below 10. -/
theorem Button.atReset_selected_iff (i : ButtonId) :
    (Button.atReset i).selected = true ↔ i.val ∈ [0, 2, 4, 6, 8] := by
  simp only [Button.atReset, Bool.and_eq_true, decide_eq_true_eq, List.mem_cons, List.not_mem_nil, or_false]
  omega

/-- Settles O9: the scalar registers by the definition of the reset state, the widget files element by element. -/
theorem resetStateValues : Obligations.ResetStateValues := by
  intro cfg
  refine ⟨rfl, rfl, rfl, rfl, rfl, rfl, Capture.nothing_capSld, rfl, rfl, rfl, rfl, rfl, rfl, rfl, rfl,
    fun i => ?button, fun j => ?slider, rfl, rfl, rfl⟩
  case button =>
    rw [State.resetWith_button]
    exact ⟨Button.atReset_selected_iff i, rfl, rfl⟩
  case slider =>
    rw [State.resetWith_slider]
    exact ⟨rfl, rfl⟩

end Sys2Proof.Machine

namespace Sys2Proof

/-! Encoding and decoding are inverse (R89). -/

/-- A field below the highest one is a field of what stands below it. -/
theorem extractLsb'_append_of_low {v w start len : Nat} {hi : BitVec v} {lo : BitVec w} {f : BitVec len}
    (h : lo.extractLsb' start len = f) (le : start + len ≤ w := by decide) :
    (hi ++ lo).extractLsb' start len = f := by
  rw [BitVec.extractLsb'_append_eq_of_add_le le, h]

theorem extractLsb'_one (w : OpWord) (k : Nat) : w.extractLsb' k 1 = BitVec.ofBool (w.getLsbD k) := by
  ext n lt
  obtain rfl : n = 0 := by omega
  simp

theorem ofBool_injective : Function.Injective BitVec.ofBool := by decide

/-- The decoder reads every field where the encoder puts it. -/
theorem decode_encode (i : Instr) : decode (encode i) = .ok i := by
  cases i with
  | nop => rfl
  | tick => rfl
  | poll present x y =>
    have presentBit : (encode (.poll present x y)).getLsbD 32 = present :=
      ofBool_injective ((extractLsb'_one _ 32).symm.trans
        (extractLsb'_append_of_low (extractLsb'_append_of_low BitVec.extractLsb'_append_eq_left)))
    have xField : (encode (.poll present x y)).extractLsb' 16 16 = x :=
      extractLsb'_append_of_low (extractLsb'_append_of_low
        (extractLsb'_append_of_low BitVec.extractLsb'_append_eq_left))
    have yField : (encode (.poll present x y)).extractLsb' 0 16 = y :=
      extractLsb'_append_of_low (extractLsb'_append_of_low
        (extractLsb'_append_of_low BitVec.extractLsb'_append_eq_right))
    rw [decode_poll (Laws.EncodedOpcode.poll present x y), presentBit, xField, yField]
  | rxsoc byte =>
    have byteField : (encode (.rxsoc byte)).extractLsb' 0 8 = byte :=
      extractLsb'_append_of_low BitVec.extractLsb'_append_eq_right
    rw [decode_rxsoc (Laws.EncodedOpcode.rxsoc byte), byteField]
  | batt adc =>
    have adcField : (encode (.batt adc)).extractLsb' 0 10 = adc :=
      extractLsb'_append_of_low BitVec.extractLsb'_append_eq_right
    rw [decode_batt (Laws.EncodedOpcode.batt adc), adcField]
  | step lx ly rx ry =>
    have lxField : (encode (.step lx ly rx ry)).extractLsb' 0 10 = lx :=
      extractLsb'_append_of_low (extractLsb'_append_of_low (extractLsb'_append_of_low
        (extractLsb'_append_of_low BitVec.extractLsb'_append_eq_right)))
    have lyField : (encode (.step lx ly rx ry)).extractLsb' 10 10 = ly :=
      extractLsb'_append_of_low (extractLsb'_append_of_low (extractLsb'_append_of_low
        (extractLsb'_append_of_low BitVec.extractLsb'_append_eq_left)))
    have rxField : (encode (.step lx ly rx ry)).extractLsb' 20 10 = rx :=
      extractLsb'_append_of_low (extractLsb'_append_of_low
        (extractLsb'_append_of_low BitVec.extractLsb'_append_eq_left))
    have ryField : (encode (.step lx ly rx ry)).extractLsb' 30 10 = ry :=
      extractLsb'_append_of_low (extractLsb'_append_of_low BitVec.extractLsb'_append_eq_left)
    rw [decode_step (Laws.EncodedOpcode.step lx ly rx ry), lxField, lyField, rxField, ryField]

/-- Masking a run of bits, split in two as the mask is. -/
theorem extractLsb'_and_append (m n : Nat) {start : Nat} {w : OpWord} {a c : BitVec m} {b d : BitVec n}
    (high : w.extractLsb' (start + n) m &&& a = c) (low : w.extractLsb' start n &&& b = d) :
    w.extractLsb' start (m + n) &&& (a ++ b) = c ++ d := by
  rw [← BitVec.extractLsb'_append_extractLsb'_eq_extractLsb' rfl, BitVec.and_append, high, low]

/-- The encoder puts every field back where the decoder read it, and clears the rest. -/
theorem encode_of_decode {w : OpWord} {i : Instr} (h : decode w = .ok i) : encode i = w &&& usedBits (opcodeOf w) := by
  have code {c : OpCode} (e : opcodeOf w = c) : w.extractLsb' (0 + 44) 4 &&& BitVec.allOnes 4 = c :=
    BitVec.and_allOnes.trans e
  suffices masked : encode i = w.extractLsb' 0 48 &&& usedBits (opcodeOf w) by
    rwa [BitVec.extractLsb'_eq_self] at masked
  rcases decode_cases w with ⟨c, e⟩ | ⟨c, e⟩ | ⟨c, e⟩ | ⟨c, e⟩ | ⟨c, e⟩ | ⟨c, e⟩ | ⟨-, e⟩ <;>
    rw [e] at h <;> cases h <;> rw [c]
  · have mask : usedBits 0 = BitVec.allOnes 4 ++ 0#44 := by decide
    rw [mask]
    exact (extractLsb'_and_append 4 44 (code c) BitVec.and_zero).symm
  · have mask : usedBits 1 = BitVec.allOnes 4 ++ 0#44 := by decide
    rw [mask]
    exact (extractLsb'_and_append 4 44 (code c) BitVec.and_zero).symm
  · have mask : usedBits 2 =
      BitVec.allOnes 4 ++ (0#11 ++ (BitVec.allOnes 1 ++ (BitVec.allOnes 16 ++ BitVec.allOnes 16))) := by decide
    rw [mask]
    exact (extractLsb'_and_append 4 44 (code c) (extractLsb'_and_append 11 33 BitVec.and_zero
      (extractLsb'_and_append 1 32 (BitVec.and_allOnes.trans (extractLsb'_one w 32))
        (extractLsb'_and_append 16 16 BitVec.and_allOnes BitVec.and_allOnes)))).symm
  · have mask : usedBits 3 = BitVec.allOnes 4 ++ (0#36 ++ BitVec.allOnes 8) := by decide
    rw [mask]
    exact (extractLsb'_and_append 4 44 (code c)
      (extractLsb'_and_append 36 8 BitVec.and_zero BitVec.and_allOnes)).symm
  · have mask : usedBits 4 = BitVec.allOnes 4 ++ (0#34 ++ BitVec.allOnes 10) := by decide
    rw [mask]
    exact (extractLsb'_and_append 4 44 (code c)
      (extractLsb'_and_append 34 10 BitVec.and_zero BitVec.and_allOnes)).symm
  · have mask : usedBits 5 = BitVec.allOnes 4 ++ (0#4 ++ (BitVec.allOnes 10 ++ (BitVec.allOnes 10 ++
      (BitVec.allOnes 10 ++ BitVec.allOnes 10)))) := by decide
    rw [mask]
    exact (extractLsb'_and_append 4 44 (code c) (extractLsb'_and_append 4 40 BitVec.and_zero
      (extractLsb'_and_append 10 30 BitVec.and_allOnes
        (extractLsb'_and_append 10 20 BitVec.and_allOnes
          (extractLsb'_and_append 10 10 BitVec.and_allOnes BitVec.and_allOnes))))).symm

/-- Settles O1: the two round trips, and the decoder's cases by the operation code. -/
theorem decodeEncodeRoundTrip : Obligations.DecodeEncodeRoundTrip := by
  refine ⟨decode_encode, fun w i h => encode_of_decode h, fun w => ?_⟩
  rcases Nat.lt_or_ge (opcodeOf w).toNat 6 with named | reserved
  · exact .inl ⟨Nat.le_of_lt_succ named, Machine.exists_decode_of_code_lt named⟩
  · exact .inr ⟨reserved, decode_reserved reserved⟩

end Sys2Proof

namespace Sys2Proof.Machine

/-! ControlBits and the groups of the dispatch table (R163, R165, R168). -/

/-- The group of a button (R43): pair `k` for the buttons 2k and 2k + 1, and 5 for the three eye buttons. -/
def buttonGroup (i : ButtonId) : Nat := min (i.val / 2) 5

/-- `select` names buttons of the pressed button's group only. -/
theorem buttonGroup_of_named : ∀ i j : ButtonId,
    j = i ∨ j = dispatchTable[i].old ∨ some j = dispatchTable[i].other → buttonGroup j = buttonGroup i := by decide

/-- A row that writes a bit is a pair's, and the bit is the pair's own. -/
theorem dispatchTable_bit_group : ∀ (i : ButtonId) (k : Fin 8) (v : Bool), dispatchTable[i].bit = some (k, v) →
    k.val < 5 ∧ k.val = buttonGroup i := by decide

/-- An eye button deselects both others (R164). -/
theorem dispatchTable_eye_deselects : ∀ i j : ButtonId, 10 ≤ i.val → 10 ≤ j.val → j ≠ i →
    j = dispatchTable[i].old ∨ some j = dispatchTable[i].other := by decide

/-- An operation leaves ControlBits or writes one pair's bit (R168). -/
theorem effect_controlBits_cases (i : Instr) (s : State) : (effect i s).controlBits = s.controlBits ∨
    ∃ (k : Fin 8) (v : Bool), k.val < 5 ∧ (effect i s).controlBits = writeBit s.controlBits k.val v := by
  cases d : isStepIn .dispatch i s with
  | false => exact .inl (controlBits_eq_of_bits fun k => effect_keeps_unwritten i s (.controlBit k) d)
  | true =>
    obtain ⟨p, lx, ly, rx, ry, rfl⟩ := step_of_isStepIn d
    cases valid : s.press.pressValid with
    | false => exact .inl (by rw [effect_dispatch_noPress p valid]; rfl)
    | true =>
      rw [effect_dispatch_press_controlBits p valid rfl]
      cases named : dispatchTable[s.press.pressId].bit with
      | none => exact .inl rfl
      | some bit => exact .inr ⟨bit.1, bit.2, (dispatchTable_bit_group _ _ _ named).1, rfl⟩

theorem effect_controlBits_high (i : Instr) (s : State) {k : Fin 8} (high : 5 ≤ k.val) :
    (effect i s).controlBits.getLsbD k.val = s.controlBits.getLsbD k.val := by
  rcases effect_controlBits_cases i s with same | ⟨m, v, lt, write⟩
  · rw [same]
  · have ne : k ≠ m := by omega
    rw [write, writeBit_getLsbD, if_neg ne]

/-- Settles O26: an operation writes at most one bit, and that of a pair. -/
theorem atMostOneControlBitChanges : Obligations.AtMostOneControlBitChanges := by
  intro i s t h
  obtain rfl := exec_next_iff.1 h
  refine ⟨fun k m changedK changedM => ?_, fun k high => effect_controlBits_high i s high⟩
  rcases effect_controlBits_cases i s with same | ⟨n, v, -, write⟩
  · exact absurd (by rw [same]) changedK
  · have written {j : Fin 8} (changed : (effect i s).controlBits.getLsbD j.val ≠ s.controlBits.getLsbD j.val) :
        j = n := by
      by_contra ne
      exact changed (by rw [write, writeBit_getLsbD, if_neg ne])
    exact (written changedK).trans (written changedM).symm

/-! R43: the groups stay exclusive. -/

theorem highBits_eq_zero_iff (b : Byte) :
    b.extractLsb' 5 3 = 0 ↔ ∀ k : Fin 8, 5 ≤ k.val → b.getLsbD k.val = false := by
  rw [BitVec.eq_of_getLsbD_eq_iff]
  refine ⟨fun zero k le => ?_, fun zero n lt => ?_⟩
  · have place : 5 + (k.val - 5) = k.val := by omega
    simpa [show k.val - 5 < 3 by omega, place] using zero (k.val - 5) (by omega)
  · simpa [lt] using zero ⟨5 + n, by omega⟩ (Nat.le_add_right 5 n)

section
variable {s : State} (p : s.phase = .dispatch) (valid : s.press.pressValid = true) (lx ly rx ry : Adc)
include p valid

theorem effect_press_selected_other_group {j : ButtonId} (other : buttonGroup j ≠ buttonGroup s.press.pressId) :
    (effect (.step lx ly rx ry) s).buttons[j].selected = s.buttons[j].selected := by
  rw [effect_dispatch_press_button p valid rfl, selectOne_unnamed (mt (buttonGroup_of_named _ j) other)]

theorem effect_press_bit_other_group {k : Fin 8} (other : k.val ≠ buttonGroup s.press.pressId) :
    (effect (.step lx ly rx ry) s).controlBits.getLsbD k.val = s.controlBits.getLsbD k.val := by
  rw [effect_dispatch_press_controlBits p valid rfl]
  exact applyBit_getLsbD_of_unnamed (fun ⟨v, named⟩ => other (dispatchTable_bit_group _ k v named).2) _

/-- The pressed pair: the bit is written as the pressed member says, and its partner is deselected. -/
theorem effect_press_pair {k : Fin 8} {v : Bool} {old : ButtonId} (lt : k.val < 5)
    (new : s.press.pressId.val = 2 * k.val + v.toNat) (partner : old.val = 2 * k.val + (!v).toNat) :
    (effect (.step lx ly rx ry) s).controlBits.getLsbD k.val = v ∧
    (effect (.step lx ly rx ry) s).buttons[s.press.pressId].selected = true ∧
    (effect (.step lx ly rx ry) s).buttons[old].selected = false := by
  obtain ⟨row, ne⟩ := dispatchTable_pair k v _ old lt new partner
  refine ⟨?_, (effect_dispatch_press_selects p valid row lx ly rx ry).1,
    (effect_dispatch_press_deselects p valid row lx ly rx ry ne.symm (.inl rfl)).1⟩
  rw [effect_dispatch_press_controlBits p valid row]
  exact (writeBit_getLsbD _ k v k).trans (if_pos rfl)

/-- The pressed eye button is the only selected one. -/
theorem effect_press_only_eye {j : ButtonId} (eye : 10 ≤ s.press.pressId.val) (eyeJ : 10 ≤ j.val)
    (selected : (effect (.step lx ly rx ry) s).buttons[j].selected = true) : j = s.press.pressId := by
  by_contra ne
  have off := effect_dispatch_press_deselects p valid rfl lx ly rx ry ne (dispatchTable_eye_deselects _ j eye eyeJ ne)
  rw [off.1] at selected
  cases selected

theorem GroupsExclusive.press (groups : GroupsExclusive s) : GroupsExclusive (effect (.step lx ly rx ry) s) := by
  obtain ⟨pairs, eyes, high⟩ := groups
  refine ⟨fun k even odd isEven isOdd => ?pair, fun i j eyeI eyeJ selI selJ => ?eye,
    (highBits_eq_zero_iff _).2 fun k le => ?high⟩
  case pair =>
    have bitK : (k.castLE (by decide) : Fin 8).val < 5 := k.isLt
    rcases eq_or_ne k.val (buttonGroup s.press.pressId) with pressed | other
    · rcases (by simp only [buttonGroup] at pressed; omega :
          s.press.pressId.val = even.val ∨ s.press.pressId.val = odd.val) with h | h
      · obtain ⟨bit, new, old⟩ := effect_press_pair p valid lx ly rx ry (v := false) (old := odd) bitK
          (h.trans isEven) isOdd
        obtain rfl : s.press.pressId = even := Fin.ext h
        exact ⟨bit.trans old.symm, by rw [new, old]; rfl⟩
      · obtain ⟨bit, new, old⟩ := effect_press_pair p valid lx ly rx ry (v := true) (old := even) bitK
          (h.trans isOdd) isEven
        obtain rfl : s.press.pressId = odd := Fin.ext h
        exact ⟨bit.trans new.symm, by rw [new, old]; rfl⟩
    · have evenKept := effect_press_selected_other_group p valid lx ly rx ry (j := even)
        (by simp only [buttonGroup] at other ⊢; omega)
      have oddKept := effect_press_selected_other_group p valid lx ly rx ry (j := odd)
        (by simp only [buttonGroup] at other ⊢; omega)
      have bitKept := effect_press_bit_other_group p valid lx ly rx ry (k := k.castLE (by decide)) other
      obtain ⟨bit, opposite⟩ := pairs k even odd isEven isOdd
      rw [evenKept, oddKept]
      exact ⟨bitKept.trans bit, opposite⟩
  case eye =>
    rcases Nat.lt_or_ge s.press.pressId.val 10 with pair | eye
    · have kept {b : ButtonId} (isEye : 10 ≤ b.val) := effect_press_selected_other_group p valid lx ly rx ry (j := b)
        (by simp only [buttonGroup]; omega)
      rw [kept eyeI] at selI
      rw [kept eyeJ] at selJ
      exact eyes i j eyeI eyeJ selI selJ
    · exact (effect_press_only_eye p valid lx ly rx ry eye eyeI selI).trans
        (effect_press_only_eye p valid lx ly rx ry eye eyeJ selJ).symm
  case high =>
    rw [effect_controlBits_high _ s le]
    exact (highBits_eq_zero_iff _).1 high k le

end

/-! The invariants of spec/10_state.md section 9, operation by operation. An operation shows only the clauses about
registers it writes; the others are those of the state before. -/

theorem Inv.idle {s : State} (inv : Inv s) : Inv s.idle := { inv with }

theorem Inv.with_inputs {s : State} (inv : Inv s) (l : List ClockInput) : Inv { s with inputs := l } := { inv with }

/-- The registers the invariants speak of. -/
theorem Inv.congr {s t : State} (inv : Inv s) (touch : t.touch = s.touch) (capture : t.capture = s.capture)
    (press : t.press = s.press) (bits : t.controlBits = s.controlBits)
    (selected : ∀ i : ButtonId, t.buttons[i].selected = s.buttons[i].selected)
    (value : ∀ j : SliderId, t.sliders[j].value = s.sliders[j].value)
    (localPct : t.localPct = s.localPct) (remotePct : t.remotePct = s.remotePct) : Inv t where
  stateAgrees := by rw [touch]; exact inv.stateAgrees
  captureInContact := by rw [touch, capture]; exact inv.captureInContact
  noCaptureNoId := by rw [capture]; exact inv.noCaptureNoId
  noPressNoId := by rw [press]; exact inv.noPressNoId
  groups := by simp only [GroupsExclusive, bits, selected]; exact inv.groups
  sliderRange j := by rw [value]; exact inv.sliderRange j
  localRange := by rw [localPct]; exact inv.localRange
  remoteRange := by rw [remotePct]; exact inv.remoteRange

theorem sessionStateOf_satInc16 (n : U16) :
    sessionStateOf (satInc16 n) = if n.toNat ≤ 1 then .settling else .active := by
  have count := satInc16_toNat n
  rw [sessionStateOf, if_neg (by omega)]
  exact if_congr (by omega) rfl rfl

/-- R40. -/
theorem effect_poll_present_stateAgrees (x y : U16) (s : State) :
    (effect (.poll true x y) s).touch.state = sessionStateOf (effect (.poll true x y) s).touch.settleCount := by
  rw [effect_poll_present_touch, sessionStateOf_satInc16]

theorem captureAt_noButton {cfg : Cfg} {px py : U16} (h : (captureAt cfg px py).capBtnValid = false) :
    (captureAt cfg px py).capBtnId = 0 := by
  have miss : hitButton cfg px py = none := Option.isNone_iff_eq_none.1 (Option.isSome_eq_false_iff.1 h)
  simp only [captureAt, miss, Option.getD_none]

theorem Capture.nothing_captured :
    ¬ (Capture.nothing.capBtnValid = true ∨ ∃ j : SliderId, Capture.nothing.capSld[j] = true) := by
  rintro (valid | ⟨j, captured⟩)
  · cases valid
  · rw [Capture.nothing_capSld] at captured
    cases captured

theorem Inv.poll_present {s : State} (inv : Inv s) (x y : U16) : Inv (effect (.poll true x y) s) := by
  have agrees := effect_poll_present_stateAgrees x y s
  have count := effect_poll_present_settleCount x y s
  rcases lt_trichotomy s.touch.settleCount.toNat 2 with n | n | n
  · rw [effect_poll_settling (Nat.le_of_lt_succ n)] at agrees ⊢
    exact { inv with
      stateAgrees := agrees
      captureInContact := fun captured => absurd (inv.captureInContact captured) (by omega) }
  · rw [effect_poll_tapDown n] at agrees count ⊢
    exact { inv with
      stateAgrees := agrees
      captureInContact := fun _ => by omega
      noCaptureNoId := captureAt_noButton }
  · have range := effect_poll_drag_value n x y
    rw [effect_poll_drag n] at agrees count range ⊢
    exact { inv with
      stateAgrees := agrees
      captureInContact := fun _ => by omega
      sliderRange := fun j => by
        rw [range]
        split
        · exact sliderValue_le _ x (slider_width s.cfg j)
        · exact inv.sliderRange j }

theorem Inv.poll_absent {s : State} (inv : Inv s) (x y : U16) : Inv (effect (.poll false x y) s) := by
  rcases Nat.lt_or_ge s.touch.settleCount.toNat 3 with n | n
  · rw [effect_poll_noise n]
    exact { inv with
      stateAgrees := rfl
      captureInContact := fun captured => absurd (inv.captureInContact captured) (by omega) }
  · rw [effect_poll_tapUp n]
    exact { inv with
      stateAgrees := rfl
      captureInContact := fun captured => absurd captured Capture.nothing_captured
      noCaptureNoId := fun _ => rfl
      noPressNoId := by
        simp only [onTapUp_press]
        split
        · intro h; cases h
        · exact inv.noPressNoId }

/-- R46: what RXSOC stores is the old estimate or a lower one that is not negative. -/
theorem Inv.rxsoc {s : State} (inv : Inv s) (byte : Byte) : Inv (effect (.rxsoc byte) s) :=
  { inv with
    remoteRange := by
      obtain ⟨low, high⟩ := inv.remoteRange
      rw [effect_rxsoc_remotePct]
      split <;> omega }

/-- R46: what BATT stores is the old estimate or a lower one that is at least -333. -/
theorem Inv.batt {s : State} (inv : Inv s) (adc : Adc) : Inv (effect (.batt adc) s) :=
  { inv with
    localRange := by
      obtain ⟨low, high⟩ := inv.localRange
      obtain ⟨least, -⟩ := localPercent_bounds adc
      rw [effect_batt_localPct]
      split <;> omega }

theorem Inv.step {s : State} (inv : Inv s) (lx ly rx ry : Adc) : Inv (effect (.step lx ly rx ry) s) := by
  cases p : s.phase with
  | dispatch =>
    cases valid : s.press.pressValid with
    | false =>
      rw [effect_dispatch_noPress p valid]
      exact { inv with }
    | true =>
      have groups := GroupsExclusive.press p valid lx ly rx ry inv.groups
      rw [effect_dispatch_press p valid] at groups ⊢
      exact { inv with
        noPressNoId := fun _ => rfl
        groups := groups }
  | frame =>
    rcases Nat.lt_or_ge 781 s.tickAcc.toNat with due | notDue
    · rw [effect_frame_due p due]
      exact inv.congr rfl rfl rfl rfl (fun _ => rfl) (fun _ => rfl) rfl rfl
    · rw [effect_frame_notDue p notDue]
      exact { inv with }
  | render =>
    rw [effect_step_render p]
    exact inv.congr (renderPhase_touch _) (renderPhase_capture _) (renderPhase_press _) (renderPhase_controlBits _)
      (fun i => by rw [renderPhase_button]; rfl) (fun j => by rw [renderPhase_slider]; rfl) (renderPhase_localPct _)
      (renderPhase_remotePct _)

/-- Every operation keeps the invariants. -/
theorem Inv.effect {s : State} (inv : Inv s) (i : Instr) : Inv (effect i s) := by
  cases i with
  | nop => exact inv.idle
  | tick => exact { inv with }
  | poll present x y =>
    cases present with
    | true => exact inv.poll_present x y
    | false => exact inv.poll_absent x y
  | rxsoc byte => exact inv.rxsoc byte
  | batt adc => exact inv.batt adc
  | step lx ly rx ry => exact inv.step lx ly rx ry

/-- R34. -/
theorem Button.atReset_selected (i : ButtonId) :
    (Button.atReset i).selected = decide (i.val < 10 ∧ i.val % 2 = 0) := (Bool.decide_and _ _).symm

theorem GroupsExclusive.resetWith (cfg : Cfg) : GroupsExclusive (State.resetWith cfg) := by
  refine ⟨fun k even odd isEven isOdd => ?pair, fun i j eyeI _ selI _ => ?eye,
    show (0 : Byte).extractLsb' 5 3 = 0 by decide⟩
  case pair =>
    have evenOn : even.val < 10 ∧ even.val % 2 = 0 := by omega
    have oddOff : ¬ (odd.val < 10 ∧ odd.val % 2 = 0) := by omega
    simp only [State.resetWith_button, Button.atReset_selected, evenOn, oddOff]
    exact ⟨BitVec.getLsbD_zero, rfl⟩
  case eye =>
    rw [State.resetWith_button, Button.atReset_selected, decide_eq_true_eq] at selI
    omega

theorem Inv.resetWith (cfg : Cfg) : Inv (State.resetWith cfg) where
  stateAgrees := rfl
  captureInContact captured := absurd captured Capture.nothing_captured
  noCaptureNoId _ := rfl
  noPressNoId _ := rfl
  groups := .resetWith cfg
  sliderRange j := by rw [State.resetWith_slider]; decide
  localRange := show -333 ≤ Config.battReset.toInt ∧ Config.battReset.toInt ≤ 100 by decide
  remoteRange := show 0 ≤ Config.battReset.toInt ∧ Config.battReset.toInt ≤ 100 by decide

/-- Settles O41: the inputs to come are in no invariant. -/
theorem invariantsHoldAfterReset : Obligations.InvariantsHoldAfterReset :=
  fun cfg inputs => (Inv.resetWith cfg).with_inputs inputs

/-- Settles O42: an edge idles the outputs, resets the registers or runs an operation. -/
theorem everyStepKeepsTheInvariants : Obligations.EveryStepKeepsTheInvariants := by
  intro s t inv h
  rcases step_cases h with ⟨-, rfl⟩ | ⟨_, rest, -, ⟨-, rfl⟩ | ⟨-, -, rfl⟩ | ⟨-, -, i, -, rfl⟩⟩
  · exact inv.idle
  · exact (Inv.resetWith s.cfg).with_inputs rest
  · exact (inv.with_inputs rest).idle
  · exact (inv.with_inputs rest).effect i

/-- Settles O43: induction over the run, from reset by O41 and edge by edge by O42. -/
theorem reachableStatesKeepTheInvariants : Obligations.ReachableStatesKeepTheInvariants := by
  intro s reached
  have inv : Inv s := by
    induction reached with
    | start cfg inputs => exact invariantsHoldAfterReset cfg inputs
    | edge _ h inv => exact everyStepKeepsTheInvariants _ _ inv h
  refine ⟨inv, ?_⟩
  rcases onlyReservedCodesStop.2 s with ⟨t, next⟩ | ⟨w, rest, -, reserved, refused⟩
  · exact .inl ⟨t, next, everyStepKeepsTheInvariants s t inv next⟩
  · exact .inr ⟨opcodeOf w, by rwa [opcodeOf_toNat], refused⟩

end Sys2Proof.Machine

namespace Sys2Proof.Machine

/-! Runs of TICKs (R181, R187, R265). -/

theorem OnlyWrites.refl (written : List Reg) (s : State) : OnlyWrites written s s := ⟨fun _ _ => rfl, rfl, rfl⟩

theorem frameDue_iff (n : U16) : frameDue n = true ↔ 781 < n.toNat := decide_eq_true_iff

theorem runOps_ticks (n : Nat) (s : State) : ∃ t, runOps (List.replicate n .tick) s = .next t ∧
    t.tickAcc.toNat = (s.tickAcc.toNat + n) % 2 ^ 16 ∧ OnlyWrites [.tickAcc] s t ∧ t.tx = s.tx := by
  induction n generalizing s with
  | zero => exact ⟨s, rfl, (Nat.mod_eq_of_lt s.tickAcc.isLt).symm, .refl _ s, rfl⟩
  | succ n ih =>
    obtain ⟨t, run, count, frame, stream⟩ := ih (effect .tick s)
    have one : (effect .tick s).tickAcc.toNat = (s.tickAcc.toNat + 1) % 65536 := wrapInc16_toNat s.tickAcc
    exact ⟨t, by rw [List.replicate_succ, runOps_cons, run], by omega, (effect_tick_onlyWrites s).trans frame, stream⟩

/-- Settles O13: a frame is due when more than 781 ticks are counted. -/
theorem ticksAccumulateToAFrame : Obligations.TicksAccumulateToAFrame := by
  refine ⟨runOps_ticks, fun n s t zero small h => ?_⟩
  obtain ⟨u, run, count, -, -⟩ := runOps_ticks n s
  obtain rfl : u = t := Host.Outcome.next.inj (run.symm.trans h)
  have zero : s.tickAcc.toNat = 0 := by rw [zero]; rfl
  rw [frameDue_iff]
  omega

/-! TapUps (R271). -/

/-- No POLL but one after at least 3 samples reports TapUp (R115). -/
theorem settled_of_tapUp {i : Instr} {s : State} {x y : U16} (h : (effect i s).out.event = .tapUp x y) :
    isPoll i = true ∧ 3 ≤ s.touch.settleCount.toNat := by
  cases i with
  | nop | tick | rxsoc | batt | step => rw [effect_event_of_not_poll rfl] at h; cases h
  | poll present sx sy =>
    refine ⟨rfl, ?_⟩
    cases present with
    | true =>
      obtain ⟨e, kind, out, -⟩ := effect_poll_present_reports sx sy s
      rw [out] at h
      rcases kind with rfl | rfl | rfl <;> cases h
    | false =>
      by_contra n
      rw [(effect_poll_noise_reports (by omega) sx sy).event_eq] at h
      cases h

/-- An operation counts at most one sample, and only a POLL counts (R20, R111). -/
theorem effect_settleCount_le (i : Instr) (s : State) :
    (effect i s).touch.settleCount.toNat ≤ s.touch.settleCount.toNat + (isPoll i).toNat := by
  cases i with
  | nop | tick | rxsoc | batt | step => exact le_of_eq (effect_keeps_unwritten _ s .settleCount rfl)
  | poll present x y =>
    cases present with
    | true => rw [effect_poll_present_settleCount]; exact min_le_right _ _
    | false => rw [effect_poll_absent_touch]; exact Nat.zero_le _

theorem no_tapUp_of_few_polls (ops : List Instr) (s : State) {x y : U16}
    (few : s.touch.settleCount.toNat + (ops.filter isPoll).length < 4) : .tapUp x y ∉ eventsOf ops s := by
  induction ops generalizing s with
  | nil => exact List.not_mem_nil
  | cons i ops ih =>
    have count := effect_settleCount_le i s
    have polls : ((i :: ops).filter isPoll).length = (isPoll i).toNat + (ops.filter isPoll).length := by
      cases h : isPoll i <;> simp [h, Nat.add_comm]
    rw [eventsOf_cons, List.mem_cons, not_or]
    refine ⟨fun event => ?_, ih (effect i s) (by omega)⟩
    obtain ⟨poll, settled⟩ := settled_of_tapUp event.symm
    rw [poll, Bool.toNat_true] at polls
    omega

/-- Settles O20: a TapUp needs 3 samples counted before its own POLL. -/
theorem noTapUpWithinThreePolls : Obligations.NoTapUpWithinThreePolls :=
  fun s ops zero few x y => no_tapUp_of_few_polls ops s (by simpa [zero] using few)

/-! What only a reset does (R263). -/

theorem effect_fullRedraw (i : Instr) (s : State) :
    (effect i s).fullRedraw = (s.fullRedraw && !isStepIn .render i s) := by
  cases r : isStepIn .render i s with
  | false => rw [bool_eq_of_toNat (effect_keeps_unwritten i s .fullRedraw r)]; simp
  | true =>
    obtain ⟨p, lx, ly, rx, ry, rfl⟩ := step_of_isStepIn r
    rw [effect_step_render p, renderPhase_fullRedraw]; simp

/-- Settles O24: an edge without reset runs an operation or idles, and neither raises an estimate or sets
`fullRedraw`. -/
theorem onlyResetRaisesAnEstimate : Obligations.OnlyResetRaisesAnEstimate := by
  intro s t h raised
  rcases step_cases h with ⟨-, rfl⟩ | ⟨⟨rst, valid, w⟩, rest, inputs, ⟨rfl, -⟩ | ⟨-, -, rfl⟩ | ⟨-, -, i, -, rfl⟩⟩
  case inr.inl => exact ⟨valid, w, rest, inputs⟩
  case inr.inr.inr =>
    have localLe := effect_localPct_le i { s with inputs := rest }
    have remoteLe := effect_remotePct_le i { s with inputs := rest }
    have redraw := effect_fullRedraw i { s with inputs := rest }
    rcases raised with up | up | ⟨off, on⟩
    · exact absurd up (not_lt.2 localLe)
    · exact absurd up (not_lt.2 remoteLe)
    · rw [on, off] at redraw
      cases redraw
  all_goals simp at raised

/-! The sequencer (R29, R216). -/

theorem effect_phase_of_not_step {i : Instr} (h : isStep i = false) (s : State) : (effect i s).phase = s.phase :=
  phase_eq_of_bits (effect_keeps_unwritten i s .phase h)

theorem effect_dispatch_phase {s : State} (p : s.phase = .dispatch) (lx ly rx ry : Adc) :
    (effect (.step lx ly rx ry) s).phase = .frame := by
  rw [effect_step_dispatch p]
  rfl

theorem effect_render_phase {s : State} (p : s.phase = .render) (lx ly rx ry : Adc) :
    (effect (.step lx ly rx ry) s).phase = .dispatch := by
  rw [effect_step_render p, renderPhase_phase]

/-- Settles O33: only STEP is listed for `phase`, and each phase has its own equation. -/
theorem phaseMovesOnlyByStep : Obligations.PhaseMovesOnlyByStep := by
  intro i s t h
  obtain rfl := exec_next_iff.1 h
  refine ⟨fun other => effect_phase_of_not_step other s, ?_⟩
  cases i with
  | nop | tick | poll | rxsoc | batt => simp [isStep]
  | step lx ly rx ry =>
    exact ⟨fun _ p => effect_dispatch_phase p lx ly rx ry, fun _ p due => effect_frame_due_phase p due lx ly rx ry,
      fun _ p notDue => effect_frame_notDue_phase p notDue lx ly rx ry, fun _ p => effect_render_phase p lx ly rx ry⟩

/-! The registers are all of the state (R49, R50). -/

theorem touch_eq_of_bits {s t : State} (state : Reg.bits s .state = Reg.bits t .state)
    (count : Reg.bits s .settleCount = Reg.bits t .settleCount) (x : Reg.bits s .x = Reg.bits t .x)
    (y : Reg.bits s .y = Reg.bits t .y) : s.touch = t.touch := by
  have stateEq : s.touch.state = t.touch.state := by
    simp only [Reg.bits] at state
    cases p : s.touch.state <;> cases q : t.touch.state <;> simp_all [TouchState.code]
  calc s.touch = ⟨s.touch.state, s.touch.settleCount, s.touch.x, s.touch.y⟩ := rfl
    _ = ⟨t.touch.state, t.touch.settleCount, t.touch.x, t.touch.y⟩ := by
      rw [stateEq, BitVec.eq_of_toNat_eq count, BitVec.eq_of_toNat_eq x, BitVec.eq_of_toNat_eq y]

theorem button_eq_of_bits {s t : State} {i : ButtonId} (selected : Reg.bits s (.selected i) = Reg.bits t (.selected i))
    (highlighted : Reg.bits s (.highlighted i) = Reg.bits t (.highlighted i))
    (dirty : Reg.bits s (.dirty i) = Reg.bits t (.dirty i)) : s.buttons[i] = t.buttons[i] := by
  calc s.buttons[i] = ⟨s.buttons[i].selected, s.buttons[i].highlighted, s.buttons[i].dirty⟩ := rfl
    _ = ⟨t.buttons[i].selected, t.buttons[i].highlighted, t.buttons[i].dirty⟩ := by
      rw [bool_eq_of_toNat selected, bool_eq_of_toNat highlighted, bool_eq_of_toNat dirty]

theorem state_eq_of_bits {s t : State} (cfg : s.cfg = t.cfg) (inputs : s.inputs = t.inputs) (out : s.out = t.out)
    (tx : s.tx = t.tx) (bits : ∀ r : Reg, r.bits s = r.bits t) : s = t := by
  have touch := touch_eq_of_bits (bits .state) (bits .settleCount) (bits .x) (bits .y)
  have capture := capture_eq_of_bits (bits .capBtnValid) (bits .capBtnId) fun j => bits (.capSld j)
  have press := press_eq_of_bits (bits .pressValid) (bits .pressId)
  have control := controlBits_eq_of_bits fun k => bits (.controlBit k)
  have ticks : s.tickAcc = t.tickAcc := BitVec.eq_of_toNat_eq (bits .tickAcc)
  have phase := phase_eq_of_bits (bits .phase)
  have redraw : s.fullRedraw = t.fullRedraw := bool_eq_of_toNat (bits .fullRedraw)
  have localPct : s.localPct = t.localPct := BitVec.eq_of_toNat_eq (bits .localPct)
  have remotePct : s.remotePct = t.remotePct := BitVec.eq_of_toNat_eq (bits .remotePct)
  have buttons : s.buttons = t.buttons := Vector.ext fun i lt =>
    button_eq_of_bits (i := ⟨i, lt⟩) (bits (.selected _)) (bits (.highlighted _)) (bits (.dirty _))
  have sliders : s.sliders = t.sliders := Vector.ext fun j lt =>
    slider_eq_of_bits (j := ⟨j, lt⟩) (bits (.value _)) (bits (.lastRendered _))
  cases s; cases t
  exact (State.mk.injEq ..).mpr ⟨cfg, inputs, touch, capture, press, control, ticks, phase, redraw, localPct, remotePct,
    buttons, sliders, out, tx⟩

theorem Reg.bits_lt (s : State) (r : Reg) : r.bits s < 2 ^ r.width := by
  cases r
  case state => simp only [Reg.bits, Reg.width]; cases s.touch.state <;> decide
  case phase => simp only [Reg.bits, Reg.width]; cases s.phase <;> decide
  case capBtnId => exact s.capture.capBtnId.isLt.trans (by decide)
  case pressId => exact s.press.pressId.isLt.trans (by decide)
  case settleCount | x | y | tickAcc | localPct | remotePct | value | lastRendered => exact BitVec.isLt _
  all_goals exact Bool.toNat_lt _

/-- Settles O40: field by field, and each level output by its type. -/
theorem registersDetermineTheState : Obligations.RegistersDetermineTheState :=
  ⟨fun _ _ => state_eq_of_bits, Reg.bits_lt⟩

/-! Traces at the operation port (R15, R62, R66). -/

theorem step_of_word {s : State} {w : OpWord} {rest : List ClockInput} {i : Instr}
    (inputs : s.inputs = { rst := false, opValid := true, opWord := w } :: rest) (d : decode w = .ok i) :
    step s = .next (effect i { s with inputs := rest }) := by
  simp only [step, inputs, clockEdge]
  exact acceptWord_of_decode d _

/-- One edge of a presented trace is its first operation, with the rest still presented. -/
theorem step_present_cons (i : Instr) (ops : List Instr) (s : State) :
    step (s.present (i :: ops)) = .next ((effect i s).present ops) := by
  have edge : step (s.present (i :: ops)) = .next (effect i { s with inputs := (s.present ops).inputs }) :=
    step_of_word rfl (decode_encode i)
  rw [edge, effect_with_inputs, State.present, State.present, effect_inputs]

theorem run_present (ops : List Instr) (s t : State) (h : runOps ops s = .next t) :
    Host.Core.run Sys2Proof.core ops.length (s.present ops) = .next t := by
  induction ops generalizing s with
  | nil => exact h
  | cons i ops ih =>
    rw [runOps_cons] at h
    have edge : Sys2Proof.core.step (s.present (i :: ops)) = .next ((effect i s).present ops) :=
      step_present_cons i ops s
    simp only [List.length_cons, Host.Core.run, edge]
    exact ih _ h

theorem runOps_inputs {ops : List Instr} {s t : State} (h : runOps ops s = .next t) : t.inputs = s.inputs := by
  induction ops generalizing s with
  | nil => cases h; rfl
  | cons i ops ih =>
    rw [runOps_cons] at h
    exact (ih h).trans (effect_inputs i s)

/-- Settles O44: each presented word decodes to the operation it encodes (O1). -/
theorem clockedTraceIsTheFold : Obligations.ClockedTraceIsTheFold := by
  intro ops s
  obtain ⟨t, run⟩ := runOps_next ops s
  exact ⟨t, run, runOps_inputs run, run_present ops s t run⟩

theorem effect_tx (i : Instr) (s : State) : (effect i s).tx = s.tx ++ (effect i s).out.tx :=
  (transmitPortShowsTheBytes i s _ (exec_eq_effect i s)).1

/-- Settles O45: each operation appends the bytes its own record shows. -/
theorem streamIsTheHistoryOfAppends : Obligations.StreamIsTheHistoryOfAppends := by
  intro ops s t h
  induction ops generalizing s with
  | nil => cases h; simp
  | cons i ops ih =>
    rw [runOps_cons] at h
    obtain ⟨stream, records⟩ := ih _ h
    exact ⟨by rw [stream, effect_tx, bytesOf_cons, List.append_assoc], by simp [records]⟩

/-- Settles O4: each word is evaluated. -/
theorem printedWordsDecode : Obligations.PrintedWordsDecode := ⟨rfl, rfl, rfl, rfl, rfl, rfl, rfl⟩

/-- Settles O5: a word that decodes runs its operation, and the two other edges are idle. -/
theorem stepRunsTheDecodedOperation : Obligations.StepRunsTheDecodedOperation := by
  refine ⟨fun s w rest i inputs d => ?_, fun s w rest inputs => ?_, fun s none => step_no_input none⟩
  · rw [step_of_word inputs d, exec_eq_effect]
  · simp only [step, inputs]
    rfl

/-- Settles O8: reset is tested before the word. -/
theorem resetWinsOverAnyWord : Obligations.ResetWinsOverAnyWord := by
  intro s valid w rest inputs
  have edge : step s = .next { s with inputs := rest }.clockReset := by
    simp only [step, inputs]
    rfl
  refine ⟨_, edge, fun r => ?_, rfl, rfl, rfl, rfl⟩
  cases r <;> rfl

end Sys2Proof.Machine

namespace Sys2Proof

/-! Which geometries become a configuration (R10). -/

theorem Geometry.configure_eq_some_iff {g : Geometry} {cfg : Cfg} : g.configure = some cfg ↔ cfg.geom = g := by
  obtain ⟨geom, wf⟩ := cfg
  simp only [Geometry.configure, Option.dite_none_right_eq_some, Option.some.injEq, Cfg.mk.injEq]
  exact ⟨fun ⟨_, e⟩ => e.symm, fun e => ⟨e ▸ wf, e.symm⟩⟩

theorem Geometry.configure_eq_none_iff {g : Geometry} : g.configure = none ↔ g.wf = false := by
  simp [Geometry.configure]

theorem Geometry.wf_eq_false_iff {g : Geometry} : g.wf = false ↔ ∃ j : SliderId, g.sliders[j].width.toNat < 17 := by
  simp only [Geometry.wf, List.all_eq_false, List.mem_finRange, true_and, decide_eq_true_eq, not_lt,
    Nat.lt_succ_iff]

/-- Settles O10: `configure` tests `wf` and keeps the geometry. -/
theorem narrowSliderConfigurationRefused : Obligations.NarrowSliderConfigurationRefused :=
  fun _ => ⟨Geometry.configure_eq_none_iff.trans Geometry.wf_eq_false_iff, fun _ => Geometry.configure_eq_some_iff.1⟩

end Sys2Proof

namespace Sys2Proof.Machine

/-! Operations run again on their own result (R73). -/

/-- The monotone rule applied twice stores what it stores once (R200). -/
theorem foldEstimate_foldEstimate (e : Percent) {v : Int} (low : -32768 ≤ v) :
    foldEstimate (foldEstimate e v) v = foldEstimate e v := by
  refine BitVec.eq_of_toInt_eq ?_
  rw [foldEstimate_toInt (foldEstimate e v) v low, foldEstimate_toInt e v low]
  omega

theorem effect_rxsoc_idem (byte : Byte) (s : State) :
    effect (.rxsoc byte) (effect (.rxsoc byte) s) = effect (.rxsoc byte) s := by
  have low : -32768 ≤ remotePercent byte := by simp only [remotePercent]; omega
  simp only [effect, foldEstimate_foldEstimate s.remotePct low]
  rfl

theorem effect_batt_idem (adc : Adc) (s : State) :
    effect (.batt adc) (effect (.batt adc) s) = effect (.batt adc) s := by
  have low : -32768 ≤ localPercent adc := by have := localPercent_bounds adc; omega
  simp only [effect, foldEstimate_foldEstimate s.localPct low]
  rfl

theorem State.mapButtons_eq_self {f : ButtonId → Button → Button} {s : State}
    (same : ∀ i : ButtonId, f i s.buttons[i] = s.buttons[i]) : s.mapButtons f = s := by
  have file : (Vector.ofFn fun i => f i s.buttons[i]) = s.buttons :=
    Vector.ext fun i lt => (Vector.getElem_ofFn lt).trans (same ⟨i, lt⟩)
  rw [State.mapButtons, file]

theorem State.mapSliders_eq_self {f : SliderId → Slider → Slider} {s : State}
    (same : ∀ j : SliderId, f j s.sliders[j] = s.sliders[j]) : s.mapSliders f = s := by
  have file : (Vector.ofFn fun j => f j s.sliders[j]) = s.sliders :=
    Vector.ext fun j lt => (Vector.getElem_ofFn lt).trans (same ⟨j, lt⟩)
  rw [State.mapSliders, file]

theorem refreshHighlight_eq_self {s : State} (fresh : ∀ i : ButtonId, highlightNow s i = s.buttons[i].highlighted) :
    refreshHighlight s = s :=
  State.mapButtons_eq_self fun i => if_pos (fresh i)

theorem clearDrawn_eq_self {s : State} (noButton : ∀ i : ButtonId, drawsButton s i = false)
    (noSlider : ∀ j : SliderId, drawsSlider s j = false) : clearDrawn s = s := by
  have buttons : (s.mapButtons fun i b => if drawsButton s i then { b with dirty := false } else b) = s :=
    State.mapButtons_eq_self fun i => by simp [noButton]
  rw [clearDrawn, buttons]
  exact State.mapSliders_eq_self fun j => by simp [noSlider]

/-- What a render pass leaves behind (R220, R221, R224): fresh highlights, no widget to draw, the loop at its start. -/
structure Rendered (s : State) : Prop where
  fresh : ∀ i : ButtonId, highlightNow s i = s.buttons[i].highlighted
  noButton : ∀ i : ButtonId, drawsButton s i = false
  noSlider : ∀ j : SliderId, drawsSlider s j = false
  noRedraw : s.fullRedraw = false
  atStart : s.phase = .dispatch

theorem renderPhase_highlight_fresh (s : State) (i : ButtonId) :
    highlightNow (renderPhase s) i = (renderPhase s).buttons[i].highlighted := by
  rw [renderPhase_button]
  simp only [highlightNow, renderPhase_capture, renderPhase_cfg, renderPhase_touch]

theorem renderPhase_draws_no_button (s : State) (i : ButtonId) : drawsButton (renderPhase s) i = false := by
  refine Bool.eq_false_iff.2 fun drawn => ?_
  obtain ⟨onPage, dirty | full⟩ := (drawsButton_iff _ i).1 drawn
  · rw [renderPhase_buttons, clearDrawn_button, Bool.and_eq_true, Bool.not_eq_true'] at dirty
    obtain ⟨marked, notDrawn⟩ := dirty
    rw [(drawsButton_iff (refreshHighlight s) i).2 ⟨onPage, .inl marked⟩] at notDrawn
    cases notDrawn
  · cases full

theorem renderPhase_draws_no_slider (s : State) (j : SliderId) : drawsSlider (renderPhase s) j = false := by
  refine Bool.eq_false_iff.2 fun drawn => ?_
  obtain ⟨onPage, changed | full⟩ := (drawsSlider_iff _ j).1 drawn
  · rw [renderPhase_slider] at changed
    have notDrawn : ¬ drawsSlider s j = true := fun d => changed (if_pos d).symm
    exact notDrawn ((drawsSlider_iff s j).2 ⟨onPage, .inl fun same => changed (same.trans (if_neg notDrawn).symm)⟩)
  · cases full

theorem effect_render_rendered {s : State} (p : s.phase = .render) (lx ly rx ry : Adc) :
    Rendered (effect (.step lx ly rx ry) s) := by
  rw [effect_step_render p]
  exact ⟨renderPhase_highlight_fresh _, renderPhase_draws_no_button _, renderPhase_draws_no_slider _,
    renderPhase_fullRedraw _, renderPhase_phase _⟩

/-- A pass with no widget to draw writes the outputs only. -/
theorem Rendered.effect_again {s : State} (h : Rendered s) (lx ly rx ry : Adc) :
    effect (.step lx ly rx ry) (s.goTo .render) = s.idle.showDraw (drawRecord s) := by
  obtain ⟨fresh, noButton, noSlider, noRedraw, atStart⟩ := h
  have refreshed : refreshHighlight (s.goTo .render).idle = (s.goTo .render).idle := refreshHighlight_eq_self fresh
  have cleared : clearDrawn (s.goTo .render).idle = (s.goTo .render).idle := clearDrawn_eq_self noButton noSlider
  rw [effect_step_render rfl, renderPhase, refreshed, cleared]
  cases s
  cases noRedraw
  cases atStart
  rfl

/-- Settles O32: the monotone rule is idempotent, and what a pass left has no widget to draw. -/
theorem repeatedOperationsAreIdempotent : Obligations.RepeatedOperationsAreIdempotent := by
  refine ⟨fun byte s t h => ?_, fun adc s t h => ?_, fun s t h => ?_, fun lx ly rx ry s t p h => ?_⟩
  · obtain rfl := exec_next_iff.1 h
    rw [exec_eq_effect, effect_rxsoc_idem]
  · obtain rfl := exec_next_iff.1 h
    rw [exec_eq_effect, effect_batt_idem]
  · obtain rfl := exec_next_iff.1 h
    rfl
  · obtain rfl := exec_next_iff.1 h
    have rendered := effect_render_rendered p lx ly rx ry
    have again := rendered.effect_again lx ly rx ry
    refine ⟨_, drawRecord (effect (.step lx ly rx ry) s), exec_eq_effect _ _, fun r => ?_, by rw [again]; rfl,
      rendered.noRedraw, fun i => ?_, fun j => ?_, ?_, ?_⟩
    · rw [again]
      cases r <;> rfl
    · rw [drawRecord_btn, rendered.noButton]
    · rw [drawRecord_sld, rendered.noSlider]
    · exact BitVec.eq_of_toNat_eq (effect_keeps_unwritten _ s .localPct rfl)
    · exact BitVec.eq_of_toNat_eq (effect_keeps_unwritten _ s .remotePct rfl)

/-! One iteration of the main loop (R102, R217). -/

theorem bytesOf_append {a b : List Instr} {s t : State} (h : runOps a s = .next t) :
    bytesOf (a ++ b) s = bytesOf a s ++ bytesOf b t := by
  simp [bytesOf, outsOf_append a b s t h]

theorem drawsOf_append {a b : List Instr} {s t : State} (h : runOps a s = .next t) :
    drawsOf (a ++ b) s = drawsOf a s ++ drawsOf b t := by
  simp [drawsOf, outsOf_append a b s t h]

theorem framesWith_length (bits : Byte) (readings : List (Adc × Adc × Adc × Adc)) :
    (framesWith bits readings).length = 7 * readings.length := by
  induction readings with
  | nil => rfl
  | cons r readings ih =>
    rw [framesWith, List.flatMap_cons, List.length_append, buildFrame_length, ← framesWith, ih, List.length_cons,
      Nat.mul_succ, Nat.add_comm]

theorem stepsWith_replicate (n : Nat) (lx ly rx ry : Adc) :
    stepsWith (List.replicate n (lx, ly, rx, ry)) = List.replicate n (.step lx ly rx ry) := List.map_replicate

/-- Up to the STEP that finds no frame due, an iteration draws nothing. -/
theorem drawsOf_frame_backlog (readings : List (Adc × Adc × Adc × Adc)) (s : State) (p : s.phase = .frame)
    (len : readings.length = framesDue s.tickAcc + 1) : drawsOf (stepsWith readings) s = [] := by
  induction readings generalizing s with
  | nil => rfl
  | cons r readings ih =>
    obtain ⟨lx, ly, rx, ry⟩ := r
    have noDraw : (effect (.step lx ly rx ry) s).out.draw = none := effect_draw_of_not_render (by simp [isStepIn, p])
    rw [stepsWith_cons, drawsOf_cons, noDraw]
    rcases Nat.lt_or_ge 781 s.tickAcc.toNat with due | notDue
    · have frames := framesDue_of_due due (effect_frame_due_tickAcc p due lx ly rx ry)
      exact ih _ (effect_frame_due_phase p due lx ly rx ry) (by simpa [frames] using len)
    · obtain rfl : readings = [] := by simpa [framesDue_eq_zero notDue] using len
      rfl

/-- A DISPATCH phase leaves the mailbox empty, keeps the ticks, and sends at most a command byte. -/
theorem effect_dispatch_mailbox {s : State} (p : s.phase = .dispatch) (lx ly rx ry : Adc) :
    (effect (.step lx ly rx ry) s).press.pressValid = false ∧ (effect (.step lx ly rx ry) s).tickAcc = s.tickAcc ∧
    ((effect (.step lx ly rx ry) s).out.tx.length = 0 ∨ (effect (.step lx ly rx ry) s).out.tx.length = 1) := by
  cases valid : s.press.pressValid with
  | false =>
    rw [effect_dispatch_noPress p valid]
    exact ⟨valid, rfl, .inl rfl⟩
  | true =>
    have sent := congrArg Outputs.tx (effect_dispatch_press_sends p valid lx ly rx ry).1
    rw [sent, effect_dispatch_press p valid]
    refine ⟨rfl, rfl, ?_⟩
    rcases command_cases s.press.pressId with none | ⟨-, b, -, one⟩
    · exact .inl (by rw [none]; rfl)
    · exact .inr (by rw [one]; rfl)

/-- The STEPs of one iteration: a DISPATCH phase, the frames due with the STEP that finds none, and a render pass. -/
def iteration (s : State) (lx ly rx ry : Adc) : List Instr :=
  .step lx ly rx ry :: (stepsWith (List.replicate (framesDue s.tickAcc + 1) (lx, ly, rx, ry)) ++ [.step lx ly rx ry])

theorem iteration_eq_replicate (s : State) (lx ly rx ry : Adc) :
    iteration s lx ly rx ry = List.replicate (3 + framesDue s.tickAcc) (.step lx ly rx ry) := by
  rw [iteration, stepsWith_replicate, ← List.replicate_succ', ← List.replicate_succ, Nat.add_comm 3]

theorem runOps_iteration {s : State} (p : s.phase = .dispatch) (lx ly rx ry : Adc) :
    ∃ t, runOps (iteration s lx ly rx ry) s = .next t ∧ t.phase = .dispatch ∧ t.press.pressValid = false ∧
      t.fullRedraw = false ∧ (drawsOf (iteration s lx ly rx ry) s).length = 1 ∧ t.tickAcc.toNat ≤ 781 ∧
      ((bytesOf (iteration s lx ly rx ry) s).length = 7 * framesDue s.tickAcc ∨
        (bytesOf (iteration s lx ly rx ry) s).length = 1 + 7 * framesDue s.tickAcc) := by
  obtain ⟨mailbox, ticks, command⟩ := effect_dispatch_mailbox p lx ly rx ry
  have inFrame := effect_dispatch_phase p lx ly rx ry
  have len : (List.replicate (framesDue s.tickAcc + 1) (lx, ly, rx, ry)).length =
      framesDue (effect (.step lx ly rx ry) s).tickAcc + 1 := by rw [List.length_replicate, ticks]
  have noDraw := drawsOf_frame_backlog _ _ inFrame len
  obtain ⟨u, run, inRender, le, -, -, bytes, frame, -, -⟩ := runOps_frame_backlog _ _ inFrame len
  have press : u.press = (effect (.step lx ly rx ry) s).press :=
    press_eq_of_bits (frame _ (by decide)) (frame _ (by decide))
  have pass := effect_step_render inRender lx ly rx ry
  have out := effect_render_out inRender lx ly rx ry
  have first : (effect (.step lx ly rx ry) s).out.draw = none := effect_draw_of_not_render (by simp [isStepIn, p])
  have sent : (framesWith (effect (.step lx ly rx ry) s).controlBits (List.take (framesDue s.tickAcc)
      (List.replicate (framesDue s.tickAcc + 1) (lx, ly, rx, ry)))).length = 7 * framesDue s.tickAcc := by
    rw [framesWith_length, List.length_take, List.length_replicate, Nat.min_eq_left (Nat.le_succ _)]
  refine ⟨effect (.step lx ly rx ry) u, ?run, effect_render_phase inRender lx ly rx ry, ?press, ?redraw, ?draws, ?ticks,
    ?bytes⟩
  case run => rw [iteration, runOps_cons, runOps_append _ _ _ u run, runOps_cons, runOps_nil]
  case press => rw [pass, renderPhase_press, State.idle_press, press, mailbox]
  case redraw => rw [pass, renderPhase_fullRedraw]
  case draws => rw [iteration, drawsOf_cons, first, drawsOf_append run, noDraw, drawsOf_cons, out]; rfl
  case ticks => rwa [pass, renderPhase_tickAcc, State.idle_tickAcc]
  case bytes =>
    rw [ticks] at bytes
    rw [iteration, bytesOf_cons, bytesOf_append run, bytes, bytesOf_cons, bytesOf_nil, out, List.length_append,
      List.length_append, sent]
    rcases command with zero | one
    · exact .inl (by rw [zero]; simp)
    · exact .inr (by rw [one]; simp)

/-- Settles O34: the expansion of LOOP is one iteration. -/
theorem loopRunsOneIteration : Obligations.LoopRunsOneIteration := by
  intro s lx ly rx ry p f ops
  have steps : iteration s lx ly rx ry = ops := iteration_eq_replicate s lx ly rx ry
  refine ⟨?_, steps ▸ runOps_iteration p lx ly rx ry⟩
  simp only [TraceOp.expand, loopLength, p, Nat.add_comm _ 3]
  rfl

end Sys2Proof.Machine
